-- ==== Sys2Proof/Word.lean ====
section
/-! DEFINITION. The word types of the PCS. A Word32 of the spec is `Word` (00_scope R11); a byte of the
DATA window is `Byte` (20_memory R70). Every bit-field helper stands in Machine/Flags.lean. -/

namespace Sys2Proof

/-- A Word32: an unsigned 32-bit value whose bit 0 is the least significant (00_scope R11). -/
abbrev Word := BitVec 32

/-- One byte of the DATA window or of a table text. -/
abbrev Byte := BitVec 8

end Sys2Proof
end

