-- ==== Sys2Proof/Config.lean ====
section
/-! DEFINITION. What the spec gives as parameters (00_scope R7, R8, R9), the shape of the working-point
table and of a log entry (10_state R46, R48), and the free values, which are opaque. -/

namespace Sys2Proof

/-- Four words in index order: a cell `dcvr[f][w]`, the raw values of a FREQ line, the DCVR registers. -/
structure Quad where
  v0 : Word
  v1 : Word
  v2 : Word
  v3 : Word
  deriving DecidableEq, Repr, Inhabited

/-- One FREQ line of a table (10_state R46). Only the serializer reads it. -/
structure FreqState where
  pllSwUp : Word
  pllSwDown : Word
  raw : Quad
  vscnt : Word
  deriving DecidableEq, Repr, Inhabited

/-- The working-point table `S.T` (10_state R46): `wp` by working point, `dcvr` by frequency state and then
working point. `freq` is empty where the variant has no FREQ lines. -/
structure Table where
  wpNum : Nat
  currWp : Nat
  wp : List (List Word)
  dvfsStateNum : Nat
  freq : List FreqState
  dcvr : List (List Quad)
  deriving DecidableEq, Repr, Inhabited

/-- One entry of the diagnostic log (10_state R48, 46 R301). -/
structure LogEntry where
  timestamp : Word
  workingPoint : Word
  voltage : Word
  frequencyIndex : Word
  deriving DecidableEq, Repr, Inhabited

/-- The regulator's channels (43 R199). -/
inductive PmicChannel where
  | primary
  | secondary
  deriving DecidableEq, Repr

/-- FREQ_INDEX_OF (00_scope R9, decision D26 OPEN): a constant function, or any function at all (the opaque
`Config.freqIndexOf`). -/
inductive FreqIndexFn where
  | const (n : Nat)
  | free
  deriving DecidableEq, Repr

/-- PMIC_MERGE (00_scope R9, decision D29 OPEN): the first raw value, as the vectors of 95 use, or any
function at all (the opaque `Config.pmicMerge`). -/
inductive PmicMergeFn where
  | firstValue
  | free
  deriving DecidableEq, Repr

/-- LOG_VOLTAGE (00_scope R9): the default `val[0]`, or any function at all (the opaque `Config.logVoltage`). -/
inductive LogVoltageFn where
  | firstValue
  | free
  deriving DecidableEq, Repr

/-- CLOCK_MODEL (00_scope R9, 41 R121): the reference definition, or any function at all of the clock and the
register fields (the opaque `Config.clockModel`; log 20). -/
inductive ClockModelFn where
  | reference
  | free
  deriving DecidableEq, Repr

/-- A clock of CLOCK_MODEL with the register fields it is computed from (00_scope R9, 41 R121): `turbo` says that the
PLL is TPLL and not MPLL, `r` is that PLL's register and `d` is DIV. -/
inductive ClockQuery where
  /-- The output of MPLL or TPLL. -/
  | pll (turbo : Bool) (r : Word)
  /-- The CPU clock while that PLL drives the core. -/
  | cpu (turbo : Bool) (r d : Word)
  /-- The AHB clock while that PLL drives the core. -/
  | ahb (turbo : Bool) (r d : Word)
  /-- The IPG clock while that PLL drives the core. -/
  | ipg (turbo : Bool) (r d : Word)
  deriving DecidableEq, Repr

/-- Free value: CLOCK_MODEL where it is not the reference definition (log 20). -/
opaque Config.clockModel : ClockQuery → Nat

/-- Free value: FREQ_INDEX_OF where it is left OPEN (decision D26; log 19). -/
opaque Config.freqIndexOf : Nat → Table → Nat

/-- Free value: PMIC_MERGE where it is left OPEN (decision D29; log 19). -/
opaque Config.pmicMerge : PmicChannel → Word → List Word → Word

/-- Free value: LOG_VOLTAGE where it is not the default (decision D38; log 19). -/
opaque Config.logVoltage : List Word → Word

/-- Free value: the PLL frequency of a PLL register whose formula of 41 R121 gives a negative number, by
REF_HZ and the register word (log 17). -/
opaque Config.pllBelowZero : Nat → Word → Nat

/-- Free value: what a log slot that nothing has written holds, by slot (93 I18; log 24). -/
opaque Config.unwrittenLogSlot : Nat → LogEntry

/-- The parameters of 00_scope R7, R8 and R9 and PCS_BASE (20_memory R77): plain data, so that every
statement over all states holds of every variant (log 2). They never change (10_state R53). -/
structure Params where
  capIntscale : Bool
  capPllscale : Bool
  capRelock : Bool
  capDvfsHw : Bool
  dvfsPredictive : Bool
  hasSdma : Bool
  dualSwitcher : Bool
  wpValues : Nat
  hasFreqLines : Bool
  nFreqStates : Nat
  armMinHz : Nat
  armMaxHz : Nat
  busMaxHz : Nat
  perMaxHz : Nat
  refHz : Nat
  logCapacity : Nat
  clockModelFn : ClockModelFn
  freqIndexFn : FreqIndexFn
  pmicMergeFn : PmicMergeFn
  logVoltageFn : LogVoltageFn
  defaultTableText : List Byte
  rcStateInit : BitVec 4
  resetDiv : Word
  resetMpll : Word
  resetTpll : Word
  resetTpllLock : Bool
  pcsBase : Nat
  deriving DecidableEq, Repr

end Sys2Proof
end

