-- ==== Sys2Proof/Syntax.lean ====
section
/-! DEFINITION. The commands of the PCS, one constructor per row of the opcode table (30_encoding R92), and the
HOST's bus accesses (30_encoding R100, R104). A command word holds no operand: operands are in ARG0 to ARG3
(30_encoding R90). -/

namespace Sys2Proof

/-- The commands (30_encoding R92). A command plays the part an instruction plays in an ISA model
(00_scope R6). -/
inductive Instr where
  | dvfsReqFreq
  | dvfsIntscale
  | dvfsPllscale
  | dvfsRelock
  | dvfsEnable
  | dvfsDisable
  | dvfsGetState
  | getCpuFreq
  | lpmEnter
  | dptcEnable
  | dptcDisable
  | dptcEnableRc
  | dptcDisableRc
  | dptcGetState
  | dptcSetWp
  | setFreqIndex
  | setTable
  | getTable
  | logRead
  | sysSuspend
  | sysResume
  deriving DecidableEq, Repr

/-- One bus access of the HOST: an address (PCS_BASE plus the offset), a size in bytes, and for a write the
value, of which the low `size` bytes count (20_memory R71, R77). -/
inductive HostAccess where
  | read (addr size : Nat)
  | write (addr size : Nat) (value : Word)
  deriving DecidableEq, Repr

end Sys2Proof
end

