-- ==== Sys2Proof/WellFormed.lean ====
section
/-! DEFINITION. What is well formed: a command word (30_encoding R90, R91), a HOST access the bus admits
(20_memory R71, R72), and a parameter set that meets the boot requirements (70 R356). -/

namespace Sys2Proof

/-- The opcodes of 30_encoding R92; every other value of OP is reserved (R98). -/
def opcodes : List Nat :=
  [0x01, 0x02, 0x03, 0x04, 0x05, 0x06, 0x07, 0x08, 0x0C, 0x10, 0x11, 0x12, 0x13, 0x14, 0x15, 0x16,
   0x20, 0x21, 0x28, 0x30, 0x31]

/-- Field Z, bits 31:8, is 0 (30_encoding R90). -/
def zFieldOk (w : Word) : Bool := w.extractLsb' 8 24 == 0

/-- Field OP, bits 7:0, is in the opcode map (30_encoding R92). -/
def opFieldOk (w : Word) : Bool := opcodes.contains (w.extractLsb' 0 8).toNat

/-- A command word SEQ decodes to a command (30_encoding R91). -/
def commandWordOk (w : Word) : Bool := zFieldOk w && opFieldOk w

/-- Every constructor of `Instr` is a command of the opcode map and has no operand field, so every one is
well formed (30_encoding R90, R99). -/
def Instr.wf (_ : Instr) : Bool := true

/-- An offset in the CSR or the command port (20_memory R70). -/
def isRegisterOffset (off : Nat) : Bool := off < 0x124

/-- An offset in the DATA window (20_memory R70). -/
def isDataOffset (off : Nat) : Bool := 0x1000 ≤ off && off < 0x3000

/-- The accesses of 20_memory R71: registers as aligned words, the DATA window by 1, 2 or 4 bytes at a multiple
of the size. Everything else is not admitted (R72). -/
def accessAdmitted (off size : Nat) : Bool :=
  (isRegisterOffset off && size == 4 && off % 4 == 0) ||
  (isDataOffset off && (size == 1 || size == 2 || size == 4) && off % size == 0)

/-- The parameters are consistent (70 R356 clause 1, 00_scope R7). -/
def Params.consistent (p : Params) : Bool :=
  !(p.capIntscale && p.capPllscale) && 1000000 ≤ p.busMaxHz && 1000000 ≤ p.perMaxHz && 1 ≤ p.refHz &&
  2 ≤ p.logCapacity && 1 ≤ p.nFreqStates && (p.wpValues == 1 || p.wpValues == 4)

/-- A PLL register the clock model computes with: MFI at least 5 and MFD at least 1 (10_state R24). -/
def pllWordOk (w : Word) : Bool := 5 ≤ (w.extractLsb' 11 4).toNat && 1 ≤ (w.extractLsb' 16 10).toNat

/-- The reset registers are legal (70 R356 clauses 2 and 3, 10_state R23). -/
def Params.resetLegal (p : Params) : Bool :=
  (p.resetDiv.extractLsb' 0 3).toNat ≤ 4 && pllWordOk p.resetMpll && (!p.capRelock || pllWordOk p.resetTpll) &&
  (!p.capRelock || !p.resetDiv.getLsbD 8 || p.resetTpllLock)

/-- FREQ_INDEX_OF gives an index of a frequency state, whatever the frequency and the table (70 R356 clause 4,
00_scope R9). Of the free form this is a claim about the opaque function, which no check can decide. -/
def Params.indexOk (p : Params) : Prop :=
  match p.freqIndexFn with
  | .const n => n < p.nFreqStates
  | .free => ∀ (hz : Nat) (t : Table), Config.freqIndexOf hz t < p.nFreqStates

/-- DEFAULT_TABLE_TEXT is at most TABLE_TEXT_MAX bytes (00_scope R9) and PCS_BASE is word aligned
(20_memory R77). -/
def Params.textAndBaseOk (p : Params) : Bool := p.defaultTableText.length ≤ 8192 && p.pcsBase % 4 == 0

/-- The boot requirements that are about plain values (70 R356 clauses 1, 2, 3 and 5). -/
def Params.valuesOk (p : Params) : Bool := p.consistent && p.resetLegal && p.textAndBaseOk

/-- The boot requirements (70 R356). -/
def Params.bootOk (p : Params) : Prop := p.valuesOk = true ∧ p.indexOk

end Sys2Proof
end

