-- ==== Sys2Proof/Decode.lean ====
section
/-! DEFINITION. The command decoder and its encoder (30_encoding R90 to R92, R98). -/

namespace Sys2Proof

/-- Why a command word is reserved (30_encoding R98). SEQ answers either with Unsupported(UnknownCommand). -/
inductive DecodeError where
  /-- Field Z, bits 31:8, is not 0. -/
  | reservedZ (z : Nat)
  /-- Field OP, bits 7:0, is not in the opcode map. -/
  | reservedOp (op : Nat)
  deriving DecidableEq, Repr

/-- The opcode map (30_encoding R92). -/
def instrOfOpcode : Nat → Option Instr
  | 0x01 => some .dvfsReqFreq
  | 0x02 => some .dvfsIntscale
  | 0x03 => some .dvfsPllscale
  | 0x04 => some .dvfsRelock
  | 0x05 => some .dvfsEnable
  | 0x06 => some .dvfsDisable
  | 0x07 => some .dvfsGetState
  | 0x08 => some .getCpuFreq
  | 0x0C => some .lpmEnter
  | 0x10 => some .dptcEnable
  | 0x11 => some .dptcDisable
  | 0x12 => some .dptcEnableRc
  | 0x13 => some .dptcDisableRc
  | 0x14 => some .dptcGetState
  | 0x15 => some .dptcSetWp
  | 0x16 => some .setFreqIndex
  | 0x20 => some .setTable
  | 0x21 => some .getTable
  | 0x28 => some .logRead
  | 0x30 => some .sysSuspend
  | 0x31 => some .sysResume
  | _ => none

/-- The decoder of 30_encoding R91, total on every word. -/
def decode (w : Word) : Except DecodeError Instr :=
  if w.extractLsb' 8 24 = 0 then
    match instrOfOpcode (w.extractLsb' 0 8).toNat with
    | some i => .ok i
    | none => .error (.reservedOp (w.extractLsb' 0 8).toNat)
  else .error (.reservedZ (w.extractLsb' 8 24).toNat)

/-- The opcode of a command (30_encoding R92). -/
def Instr.opcode : Instr → BitVec 8
  | .dvfsReqFreq => 0x01
  | .dvfsIntscale => 0x02
  | .dvfsPllscale => 0x03
  | .dvfsRelock => 0x04
  | .dvfsEnable => 0x05
  | .dvfsDisable => 0x06
  | .dvfsGetState => 0x07
  | .getCpuFreq => 0x08
  | .lpmEnter => 0x0C
  | .dptcEnable => 0x10
  | .dptcDisable => 0x11
  | .dptcEnableRc => 0x12
  | .dptcDisableRc => 0x13
  | .dptcGetState => 0x14
  | .dptcSetWp => 0x15
  | .setFreqIndex => 0x16
  | .setTable => 0x20
  | .getTable => 0x21
  | .logRead => 0x28
  | .sysSuspend => 0x30
  | .sysResume => 0x31

/-- The command word: OP in bits 7:0 and Z = 0 in bits 31:8 (30_encoding R90). -/
def encode (i : Instr) : Word := (0 : BitVec 24) ++ i.opcode

/-- The command the decoder reads from a row of the opcode table whose bits are `w`; the one word of a command
is written to CMD whole (30_encoding R90, 20_memory R74). A number that does not fit one word is no command word
(30_encoding R99). -/
def decodeTableWord (_nbits w : Nat) : Option Instr :=
  if w < 2 ^ 32 then
    match decode (BitVec.ofNat 32 w) with
    | .ok i => some i
    | .error _ => none
  else none

end Sys2Proof
end

