-- ==== Sys2Proof/Machine/Flags.lean ====
section
/-! DEFINITION. The bit fields of the registers and the status flags of the PCS (10_state R22 to R37, R52). The
PCS has no arithmetic condition codes (R52). -/

namespace Sys2Proof.Machine

/-- The field of `w` of `len` bits from bit `lo`, as an unsigned number (00_scope R11). -/
def field (w : Word) (lo len : Nat) : Nat := (w.extractLsb' lo len).toNat

/-- One bit (00_scope R11). -/
def bit (w : Word) (i : Nat) : Bool := w.getLsbD i

/-- A Bool as a bit. -/
def bitWord (b : Bool) : Word := if b then 1 else 0

/-- The masked read-modify-write value of 00_scope R13: `(old & ~mask) | (value & mask)`. -/
def merge (old mask value : Word) : Word := (old &&& ~~~mask) ||| (value &&& mask)

/-- DIV.BRMM, bits 2:0 (10_state R23). -/
def divBrmm (w : Word) : Nat := field w 0 3
/-- DIV.AHB_PDF, bits 5:3 (10_state R23). -/
def divAhbPdf (w : Word) : Nat := field w 3 3
/-- DIV.IPG_PDF, bits 7:6 (10_state R23). -/
def divIpgPdf (w : Word) : Nat := field w 6 2
/-- DIV.PLL_SEL, bit 8 (10_state R23). -/
def divPllSel (w : Word) : Bool := bit w 8

/-- MFN, bits 10:0, two's complement (10_state R24). -/
def pllMfn (w : Word) : Int := (w.extractLsb' 0 11).toInt
/-- MFI, bits 14:11 (10_state R24). -/
def pllMfi (w : Word) : Nat := field w 11 4
/-- MFD, bits 25:16 (10_state R24). -/
def pllMfd (w : Word) : Nat := field w 16 10
/-- PDF, bits 29:26 (10_state R24). -/
def pllPdf (w : Word) : Nat := field w 26 4

/-- A PLL register word from its fields; MFN takes the low 11 bits of a signed number (41 R135). -/
def pllWord (pdf mfd mfi : Nat) (mfn : Int) : Word :=
  (BitVec.ofNat 32 pdf <<< 26) ||| (BitVec.ofNat 32 mfd <<< 16) ||| (BitVec.ofNat 32 mfi <<< 11) |||
    (BitVec.ofInt 11 mfn).setWidth 32

/-- PLLSR.MPLL_LOCK, bit 0, and PLLSR.TPLL_LOCK, bit 1: `LOCK[t]` (10_state R25). -/
def pllsrLock (w : Word) (t : Bool) : Bool := if t then bit w 1 else bit w 0
/-- PLLSR.DFSP_BUSY, bit 2 (10_state R25). -/
def pllsrBusy (w : Word) : Bool := bit w 2
/-- PLLSR.CUR_PLL, bit 3: 0 normal, 1 turbo (10_state R25). -/
def pllsrCurPll (w : Word) : Bool := bit w 3
/-- PLLSR.SW_DONE, bit 4 (10_state R25). -/
def pllsrSwDone (w : Word) : Bool := bit w 4

/-- INTEN.TIMER_IE, bit 0 (10_state R31). -/
def intenTimerIe (w : Word) : Bool := bit w 0
/-- LPMCR.LPM, bits 1:0 (10_state R29). -/
def lpmcrLpm (w : Word) : Nat := field w 0 2

/-- DPTCCR.DPTC_EN, bit 0 (10_state R32). -/
def dptcEn (w : Word) : Bool := bit w 0
/-- DPTCCR.DPTC_MASK, bit 1; 1 is masked (10_state R32). -/
def dptcMask (w : Word) : Bool := bit w 1
/-- DPTCCR.CAUSE, bits 3:2 (10_state R32). -/
def dptcCause (w : Word) : BitVec 2 := w.extractLsb' 2 2
/-- DPTCCR.RCEN, bits 7:4 (10_state R32). -/
def dptcRcen (w : Word) : BitVec 4 := w.extractLsb' 4 4
/-- DPTCCR.VOLT_VALID, bit 8 (10_state R32). -/
def dptcVoltValid (w : Word) : Bool := bit w 8

/-- The DPTC interrupt line: `DPTC_EN ∧ ¬DPTC_MASK ∧ CAUSE ≠ 0`, a level (10_state R34). -/
def irqLine (w : Word) : Bool := dptcEn w && !dptcMask w && dptcCause w != 0

/-- PSR.BUSY, bit 0 (10_state R43). -/
def psrBusy (w : Word) : Bool := bit w 0
/-- PSR.OVR, bit 1 (10_state R43). -/
def psrOvr (w : Word) : Bool := bit w 1

/-- The low word of a 64-bit return (30_encoding R94). -/
def loWord (n : Nat) : Word := BitVec.ofNat 32 n
/-- The high word of a 64-bit return (30_encoding R94). -/
def hiWord (n : Nat) : Word := BitVec.ofNat 32 (n / 2 ^ 32)

/-- The four bytes of a word, least significant first (20_memory R73, R74). -/
def wordBytes (w : Word) : List Byte :=
  [w.extractLsb' 0 8, w.extractLsb' 8 8, w.extractLsb' 16 8, w.extractLsb' 24 8]

/-- Bytes as a little-endian number (20_memory R73). -/
def bytesToNat : List Byte → Nat
  | [] => 0
  | b :: bs => b.toNat + 256 * bytesToNat bs

end Sys2Proof.Machine
end

