-- ==== Sys2Proof/Machine/Operands.lean ====
section
/-! DEFINITION. The operand forms of the commands: the four argument registers, read as unsigned or as two's
complement (30_encoding R93, R94), and the parameter functions of 00_scope R9. -/

namespace Sys2Proof.Machine

/-- ARG0 to ARG3 (10_state R40), and the copies a running command keeps (R39). -/
structure Args where
  a0 : Word
  a1 : Word
  a2 : Word
  a3 : Word
  deriving DecidableEq, Repr

/-- ARGn as an unsigned number (30_encoding R93). -/
def u32 (w : Word) : Nat := w.toNat

/-- ARGn as two's complement (30_encoding R93). -/
def s32 (w : Word) : Int := w.toInt

/-- FREQ_INDEX_OF (00_scope R9). -/
def freqIndexBy : FreqIndexFn → Nat → Table → Nat
  | .const n, _, _ => n
  | .free, hz, t => Config.freqIndexOf hz t

/-- PMIC_MERGE (00_scope R9). Its first-value form has no value to give where there is none to take: it then
leaves the configuration as it is (no table that parse returns has such a row, 45 R255). -/
def pmicMerge : PmicMergeFn → PmicChannel → Word → List Word → Word
  | .firstValue, _, old, vals => vals.headD old
  | .free, ch, old, vals => Config.pmicMerge ch old vals

/-- LOG_VOLTAGE (00_scope R9). The default `val[0]` of an empty row is left to the opaque function (no table
that parse returns has such a row, 45 R255). -/
def logVoltage : LogVoltageFn → List Word → Word
  | .firstValue, v :: _ => v
  | .firstValue, [] => Config.logVoltage []
  | .free, vals => Config.logVoltage vals

end Sys2Proof.Machine
end

