-- ==== Sys2Proof/Machine/Registers.lean ====
section
/-! DEFINITION. The CSR map (10_state R22), which bits of each register a write reaches (R23 to R38), and the
command port's offsets (R39 to R43). -/

namespace Sys2Proof.Machine

/-- The registers of the CSR (10_state R22). -/
inductive Csr where
  | div
  | mpll
  | tpll
  | pllsr
  | lpmcr
  | dbgsr
  | inten
  | dptccr
  | dcvr0
  | dcvr1
  | dcvr2
  | dcvr3
  | dvfscr
  deriving DecidableEq, Repr

/-- The registers of the command port (10_state R39 to R43). -/
inductive PortReg where
  | cmd
  | arg0
  | arg1
  | arg2
  | arg3
  | result
  | rval0
  | rval1
  | psr
  deriving DecidableEq, Repr

/-- The CSR map (10_state R22). Offsets 0x01C and 0x038 to 0x0FC are reserved (R38). -/
def csrAt : Nat → Option Csr
  | 0x000 => some .div
  | 0x004 => some .mpll
  | 0x008 => some .tpll
  | 0x00C => some .pllsr
  | 0x010 => some .lpmcr
  | 0x014 => some .dbgsr
  | 0x018 => some .inten
  | 0x020 => some .dptccr
  | 0x024 => some .dcvr0
  | 0x028 => some .dcvr1
  | 0x02C => some .dcvr2
  | 0x030 => some .dcvr3
  | 0x034 => some .dvfscr
  | _ => none

/-- The command port map (10_state R39 to R43). -/
def portAt : Nat → Option PortReg
  | 0x100 => some .cmd
  | 0x104 => some .arg0
  | 0x108 => some .arg1
  | 0x10C => some .arg2
  | 0x110 => some .arg3
  | 0x114 => some .result
  | 0x118 => some .rval0
  | 0x11C => some .rval1
  | 0x120 => some .psr
  | _ => none

/-- The bits of DIV a write reaches: 8:0, and 7:0 where PLL_SEL is hardwired 0 (10_state R23). -/
def divMask (p : Params) : Word := if p.capRelock then 0x1FF else 0x0FF

/-- The bits of a PLL register a write reaches: MFN, MFI, MFD and PDF (10_state R24). -/
def pllMask : Word := 0x3FFF7FFF

/-- TPLL is reserved where there is no relock (10_state R24). -/
def tpllMask (p : Params) : Word := if p.capRelock then pllMask else 0

/-- The bits of PLLSR that exist (10_state R25). -/
def pllsrMask : Word := 0x1F

/-- The bits of LPMCR (10_state R29). -/
def lpmcrMask : Word := 0x1F

/-- The bit of INTEN (10_state R31). -/
def intenMask : Word := 0x1

/-- The bits of DPTCCR that exist: 7:0, and VOLT_VALID on HAS_SDMA variants (10_state R32). -/
def dptccrMask (p : Params) : Word := if p.hasSdma then 0x1FF else 0x0FF

/-- The bit of DVFSCR, reserved where there is no DVFS block (10_state R37). -/
def dvfscrMask (p : Params) : Word := if p.capDvfsHw then 0x1 else 0

/-- The next DPTCCR after a write of `v` over `old`: DPTC_EN, DPTC_MASK and RCEN are stored; CAUSE is read-only
but a written DPTC_EN of 0 clears it (10_state R33); a written VOLT_VALID of 1 sets it and of 0 is ignored
(R35); VOLT_VALID does not exist without SDMA (R32). -/
def dptccrWrite (p : Params) (old v : Word) : Word :=
  (v &&& 0xF3) ||| (if bit v 0 then old &&& 0x0C else 0) |||
    (if p.hasSdma then (old ||| v) &&& 0x100 else 0)

/-- The next PLLSR after a write of `v`: only SW_DONE acts, write-1-to-clear (10_state R25, R26). -/
def pllsrWrite (old v : Word) : Word := if bit v 4 then old &&& ~~~0x10 else old

/-- The next PSR after a write of `v`: only OVR acts, write-1-to-clear (10_state R43). -/
def psrWrite (old v : Word) : Word := if bit v 1 then old &&& ~~~0x2 else old

/-- The DPTCCR the IRQ handler writes: `(DPTCCR | 0x2) & ~0x1` (44 R231). -/
def irqDptccr (w : Word) : Word := (w ||| 0x2) &&& ~~~0x1

end Sys2Proof.Machine
end

