-- ==== Sys2Proof/Machine/Result.lean ====
section
/-! DEFINITION. The error kinds and details a command reports in RESULT (30_encoding R95 to R97). -/

namespace Sys2Proof.Machine

/-- RESULT[7:0], the kinds of the document's §7 (30_encoding R95). -/
inductive ErrKind where
  | invalidArgument
  | invalidOperation
  | hardwareBusy
  | resourceExhausted
  | unsupported
  | suspended
  deriving DecidableEq, Repr

/-- RESULT[15:8], the specific errors (30_encoding R96). -/
inductive Err where
  | invalidArmFrequency
  | busFrequencyInvalid
  | ahbMaxDividerExceeded
  | ipgMaxDividerExceeded
  | dfspSwitchInProgress
  | pllLessThanArmRequested
  | apiNotSupported
  | alreadyActive
  | alreadyInactive
  | invalidState
  | invalidIndex
  | notWhileActive
  | invalidMask
  | parseError
  | inputTooLarge
  | allocFailed
  | outputTooLarge
  | suspendedError
  | unknownCommand
  | invalidMode
  | noTable
  deriving DecidableEq, Repr

/-- The code of a kind (30_encoding R95). Ok is 0. -/
def ErrKind.code : ErrKind → Nat
  | .invalidArgument => 1
  | .invalidOperation => 2
  | .hardwareBusy => 3
  | .resourceExhausted => 4
  | .unsupported => 5
  | .suspended => 6

/-- The kind each detail goes with (30_encoding R96, R97). -/
def Err.kind : Err → ErrKind
  | .invalidArmFrequency => .invalidArgument
  | .busFrequencyInvalid => .invalidArgument
  | .ahbMaxDividerExceeded => .invalidArgument
  | .ipgMaxDividerExceeded => .invalidArgument
  | .dfspSwitchInProgress => .hardwareBusy
  | .pllLessThanArmRequested => .invalidArgument
  | .apiNotSupported => .unsupported
  | .alreadyActive => .invalidOperation
  | .alreadyInactive => .invalidOperation
  | .invalidState => .invalidOperation
  | .invalidIndex => .invalidArgument
  | .notWhileActive => .invalidOperation
  | .invalidMask => .invalidArgument
  | .parseError => .invalidArgument
  | .inputTooLarge => .invalidArgument
  | .allocFailed => .resourceExhausted
  | .outputTooLarge => .resourceExhausted
  | .suspendedError => .suspended
  | .unknownCommand => .unsupported
  | .invalidMode => .invalidArgument
  | .noTable => .invalidOperation

/-- The detail code (30_encoding R96). -/
def Err.detail : Err → Nat
  | .invalidArmFrequency => 1
  | .busFrequencyInvalid => 2
  | .ahbMaxDividerExceeded => 3
  | .ipgMaxDividerExceeded => 4
  | .dfspSwitchInProgress => 5
  | .pllLessThanArmRequested => 6
  | .apiNotSupported => 7
  | .alreadyActive => 8
  | .alreadyInactive => 9
  | .invalidState => 10
  | .invalidIndex => 11
  | .notWhileActive => 12
  | .invalidMask => 13
  | .parseError => 14
  | .inputTooLarge => 15
  | .allocFailed => 16
  | .outputTooLarge => 17
  | .suspendedError => 18
  | .unknownCommand => 19
  | .invalidMode => 20
  | .noTable => 21

/-- RESULT of a command that raises: `kind_code(E) | (d << 8)` (60 R320). -/
def Err.result (e : Err) : Word := BitVec.ofNat 32 (e.kind.code + 256 * e.detail)

end Sys2Proof.Machine
end

