-- ==== Sys2Proof/Machine/TableText.lean ====
section
/-! DEFINITION. The working-point table text: lines, tokens, numbers, the parser and the serializer
(45_table_io R250 to R262, R268). Pure functions over bytes. -/

namespace Sys2Proof.Machine

/-- A token: a maximal run of bytes that are not whitespace (45 R252). -/
abbrev Token := List Byte

/-- 0x0A ends a line (45 R250). -/
def newline : Byte := 0x0A
/-- The separator the serializer writes (45 R268). -/
def space : Byte := 0x20
/-- `#` opens a comment line (45 R251). -/
def hashMark : Byte := 0x23

/-- Space, tab and CR are whitespace; no other byte is (45 R250). -/
def isBlankByte (b : Byte) : Bool := b == 0x20 || b == 0x09 || b == 0x0D

/-- The lines of a text: split at each newline; bytes after the last newline form a last line (45 R250). -/
def splitLines : List Byte → List (List Byte)
  | [] => []
  | b :: bs =>
    if b = newline then [] :: splitLines bs
    else match splitLines bs with
      | [] => [[b]]
      | l :: ls => (b :: l) :: ls

/-- The tokens of a line, where `cur` holds the bytes of the token being read, last byte first (45 R252). -/
def tokensFrom (cur : Token) : List Byte → List Token
  | [] => if cur.isEmpty then [] else [cur.reverse]
  | b :: bs =>
    if isBlankByte b then
      if cur.isEmpty then tokensFrom [] bs else cur.reverse :: tokensFrom [] bs
    else tokensFrom (b :: cur) bs

/-- The tokens of a line (45 R252). -/
def tokens (line : List Byte) : List Token := tokensFrom [] line

/-- A blank line, or a line whose first byte that is not whitespace is `#`, is skipped (45 R251). -/
def isSkipped : List Token → Bool
  | [] => true
  | t :: _ => t.head? == some hashMark

/-- The lines that are not skipped, as tokens (45 R250 to R252). -/
def tokenLines (text : List Byte) : List (List Token) :=
  ((splitLines text).map tokens).filter (fun l => !isSkipped l)

/-- `WORKING` -/
def kwWorking : Token := [0x57, 0x4F, 0x52, 0x4B, 0x49, 0x4E, 0x47]
/-- `POINT` -/
def kwPoint : Token := [0x50, 0x4F, 0x49, 0x4E, 0x54]
/-- `WP` -/
def kwWp : Token := [0x57, 0x50]
/-- `FREQ` -/
def kwFreq : Token := [0x46, 0x52, 0x45, 0x51]
/-- `DCVR` -/
def kwDcvr : Token := [0x44, 0x43, 0x56, 0x52]

/-- The value of a decimal digit. -/
def decDigit (b : Byte) : Option Nat :=
  if 0x30 ≤ b.toNat && b.toNat ≤ 0x39 then some (b.toNat - 0x30) else none

/-- The value of a hex digit, of either case (45 R253). -/
def hexDigit (b : Byte) : Option Nat :=
  if 0x30 ≤ b.toNat && b.toNat ≤ 0x39 then some (b.toNat - 0x30)
  else if 0x61 ≤ b.toNat && b.toNat ≤ 0x66 then some (b.toNat - 0x57)
  else if 0x41 ≤ b.toNat && b.toNat ≤ 0x46 then some (b.toNat - 0x37)
  else none

/-- The number of a digit string read from the left, `acc` being the number of the digits before it. -/
def digitsValue (digit : Byte → Option Nat) (base : Nat) (acc : Nat) : List Byte → Option Nat
  | [] => some acc
  | b :: bs =>
    match digit b with
    | some d => digitsValue digit base (acc * base + d) bs
    | none => none

/-- A decimal token: 1 to 10 digits, at most 4294967295 (45 R253). -/
def decToken (t : Token) : Option Nat :=
  if 1 ≤ t.length && t.length ≤ 10 then
    match digitsValue decDigit 10 0 t with
    | some n => if n ≤ 4294967295 then some n else none
    | none => none
  else none

/-- A decimal token in a Word32 position. -/
def decWord (t : Token) : Option Word := (decToken t).map (BitVec.ofNat 32)

/-- A hex token: `0x` or `0X` and 1 to 8 hex digits (45 R253). -/
def hexToken : Token → Option Word
  | z :: x :: ds =>
    if z = 0x30 ∧ (x = 0x78 ∨ x = 0x58) ∧ 1 ≤ ds.length ∧ ds.length ≤ 8 then
      (digitsValue hexDigit 16 0 ds).map (BitVec.ofNat 32)
    else none
  | _ => none

/-- Every token of a list as a hex token. -/
def hexTokens : List Token → Option (List Word)
  | [] => some []
  | t :: ts =>
    match hexToken t, hexTokens ts with
    | some v, some vs => some (v :: vs)
    | _, _ => none

/-- Exactly four hex tokens. -/
def hexQuad : List Token → Option Quad
  | [a, b, c, d] =>
    match hexToken a, hexToken b, hexToken c, hexToken d with
    | some a, some b, some c, some d => some ⟨a, b, c, d⟩
    | _, _, _, _ => none
  | _ => none

/-- The header `WORKING POINT <n>` with `n ≥ 1` (45 R254). -/
def headerLine : List Token → Option Nat
  | [k, l, n] =>
    if k = kwWorking ∧ l = kwPoint then
      match decToken n with
      | some n => if 1 ≤ n then some n else none
      | none => none
    else none
  | _ => none

/-- A WP line with exactly WP_VALUES hex tokens (45 R255). -/
def wpLine (wpValues : Nat) : List Token → Option (List Word)
  | k :: ts => if k = kwWp ∧ ts.length = wpValues then hexTokens ts else none
  | [] => none

/-- A FREQ line: two decimals, four hex tokens, a decimal (45 R256). -/
def freqLine : List Token → Option FreqState
  | [k, up, down, a, b, c, d, vs] =>
    if k = kwFreq then
      match decWord up, decWord down, hexQuad [a, b, c, d], decWord vs with
      | some up, some down, some raw, some vs => some ⟨up, down, raw, vs⟩
      | _, _, _, _ => none
    else none
  | _ => none

/-- A DCVR line: exactly four hex tokens (45 R257). -/
def dcvrLine : List Token → Option Quad
  | k :: ts => if k = kwDcvr then hexQuad ts else none
  | [] => none

/-- The next `n` lines, each read by `f`, and the lines after them. -/
def readLines {α : Type} (f : List Token → Option α) :
    List (List Token) → Nat → Option (List α × List (List Token))
  | ls, 0 => some ([], ls)
  | [], _ + 1 => none
  | l :: ls, n + 1 =>
    match f l, readLines f ls n with
    | some a, some (as, rest) => some (a :: as, rest)
    | _, _ => none

/-- The DCVR cells as `states` rows of `n` cells: the frequency state is the outer index (45 R257). -/
def rows {α : Type} (n : Nat) : Nat → List α → List (List α)
  | 0, _ => []
  | k + 1, as => as.take n :: rows n k (as.drop n)

/-- The lines after the header, read into a table (45 R255 to R258, R262). -/
def parseBody (p : Params) (n : Nat) (ls : List (List Token)) : Option Table :=
  match readLines (wpLine p.wpValues) ls n with
  | none => none
  | some (wps, ls) =>
    match readLines freqLine ls (if p.hasFreqLines then p.nFreqStates else 0) with
    | none => none
    | some (freqs, ls) =>
      match readLines dcvrLine ls (p.nFreqStates * n) with
      | none => none
      | some (cells, ls) =>
        if ls.isEmpty then
          some { wpNum := n, currWp := 0, wp := wps, dvfsStateNum := p.nFreqStates, freq := freqs,
                 dcvr := rows n p.nFreqStates cells }
        else none

/-- `parse(text, ok)` (45 R259): a table, ParseError or AllocFailed. The allocation is drawn after the header
(R261). -/
def parse (p : Params) (text : List Byte) (ok : Bool) : Except Err Table :=
  match tokenLines text with
  | [] => .error .parseError
  | hdr :: ls =>
    match headerLine hdr with
    | none => .error .parseError
    | some n =>
      if ok then
        match parseBody p n ls with
        | some t => .ok t
        | none => .error .parseError
      else .error .allocFailed

/-- The character of a digit below 16, lowercase (45 R268). -/
def digitChar (d : Nat) : Byte := if d < 10 then BitVec.ofNat 8 (0x30 + d) else BitVec.ofNat 8 (0x57 + d)

/-- The digits of `x` in `base`, at most `fuel` of them, put before `acc`. -/
def digitsOf (base : Nat) : Nat → Nat → List Byte → List Byte
  | 0, _, acc => acc
  | fuel + 1, x, acc =>
    if x < base then digitChar x :: acc
    else digitsOf base fuel (x / base) (digitChar (x % base) :: acc)

/-- `dec(x)`: decimal digits, no leading zero (45 R268). -/
def decText (x : Nat) : List Byte := digitsOf 10 (x + 1) x []

/-- `" 0x" ++ hex(v)` (45 R268). -/
def hexText (v : Word) : List Byte := space :: 0x30 :: 0x78 :: digitsOf 16 (v.toNat + 1) v.toNat []

/-- The four hex tokens of a cell (45 R268). -/
def quadText (q : Quad) : List Byte := hexText q.v0 ++ hexText q.v1 ++ hexText q.v2 ++ hexText q.v3

/-- The header line (45 R268). -/
def headerText (n : Nat) : List Byte := kwWorking ++ space :: kwPoint ++ space :: decText n ++ [newline]

/-- One WP line (45 R268). -/
def wpText (vals : List Word) : List Byte := kwWp ++ (vals.map hexText).flatten ++ [newline]

/-- One FREQ line (45 R268). -/
def freqText (q : FreqState) : List Byte :=
  kwFreq ++ space :: decText q.pllSwUp.toNat ++ space :: decText q.pllSwDown.toNat ++ quadText q.raw ++
    space :: decText q.vscnt.toNat ++ [newline]

/-- One DCVR line (45 R268). -/
def dcvrText (q : Quad) : List Byte := kwDcvr ++ quadText q ++ [newline]

/-- `serialize(T)` (45 R268). `curr_wp` is not written. -/
def serialize (p : Params) (t : Table) : List Byte :=
  headerText t.wpNum ++ (t.wp.map wpText).flatten ++
    (if p.hasFreqLines then (t.freq.map freqText).flatten else []) ++
    (t.dcvr.map (fun row => (row.map dcvrText).flatten)).flatten

/-- The shape every table of a variant has (10_state R46, R47; 45 R254 to R258). -/
def tableOk (p : Params) (t : Table) : Bool :=
  1 ≤ t.wpNum && t.wpNum ≤ 4294967295 && t.currWp < t.wpNum && t.wp.length == t.wpNum &&
  t.wp.all (fun v => v.length == p.wpValues) && t.dvfsStateNum == p.nFreqStates &&
  t.freq.length == (if p.hasFreqLines then p.nFreqStates else 0) &&
  t.dcvr.length == p.nFreqStates && t.dcvr.all (fun row => row.length == t.wpNum)

end Sys2Proof.Machine
end

