-- ==== Sys2Proof/Machine/ResetValues.lean ====
section
/-! DEFINITION. The parameter set of `State.reset` and the reset values of the registers, the table and the log
(70 R351 to R354). -/

namespace Sys2Proof.Machine

/-- The text T1 of 95_test_vectors §0: two working points, 74 bytes. -/
def tableTextT1 : List Byte :=
  kwWorking ++ [0x20] ++ kwPoint ++ [0x20, 0x32, 0x0A] ++
  [0x57, 0x50, 0x20, 0x30, 0x78, 0x31, 0x30, 0x0A] ++
  [0x57, 0x50, 0x20, 0x30, 0x78, 0x32, 0x30, 0x0A] ++
  [0x44, 0x43, 0x56, 0x52, 0x20, 0x30, 0x78, 0x31, 0x20, 0x30, 0x78, 0x32] ++
  [0x20, 0x30, 0x78, 0x33, 0x20, 0x30, 0x78, 0x34, 0x0A] ++
  [0x44, 0x43, 0x56, 0x52, 0x20, 0x30, 0x78, 0x35, 0x20, 0x30, 0x78, 0x36] ++
  [0x20, 0x30, 0x78, 0x37, 0x20, 0x30, 0x78, 0x38, 0x0A]

/-- The parameter set PS-A of 95_test_vectors §0. DESIGN CHOICE: the spec leaves these parameters open and calls
no variant the default (00_scope R2); `State.reset` is the machine of PS-A, and `State.resetWith` that of any
other set (log 1). -/
def paramsA : Params where
  capIntscale := true
  capPllscale := false
  capRelock := true
  capDvfsHw := true
  dvfsPredictive := false
  hasSdma := false
  dualSwitcher := false
  wpValues := 1
  hasFreqLines := false
  nFreqStates := 1
  armMinHz := 1000000
  armMaxHz := 400000000
  busMaxHz := 133000000
  perMaxHz := 66500000
  refHz := 26000000
  logCapacity := 4
  clockModelFn := .reference
  freqIndexFn := .const 0
  pmicMergeFn := .firstValue
  logVoltageFn := .firstValue
  defaultTableText := tableTextT1
  rcStateInit := 0x5
  resetDiv := 0x012
  resetMpll := 0x00343823
  resetTpll := 0x0034500C
  resetTpllLock := false
  pcsBase := 0

/-- DIV at reset (10_state R23). -/
def divReset (p : Params) : Word := p.resetDiv &&& divMask p

/-- MPLL at reset (10_state R24). -/
def mpllReset (p : Params) : Word := p.resetMpll &&& pllMask

/-- TPLL at reset (10_state R24). -/
def tpllReset (p : Params) : Word := p.resetTpll &&& tpllMask p

/-- PLLSR at reset: MPLL_LOCK 1, TPLL_LOCK RESET_TPLL_LOCK, CUR_PLL the reset PLL_SEL (10_state R25). -/
def pllsrReset (p : Params) : Word :=
  0x1 ||| (if p.capRelock && p.resetTpllLock then 0x2 else 0) ||| (if divPllSel (divReset p) then 0x8 else 0)

/-- INTEN at reset: TIMER_IE 1 (10_state R31). -/
def intenReset : Word := 0x1

/-- DPTCCR at reset: DPTC_MASK 1, VOLT_VALID 1 if HAS_SDMA (10_state R32). -/
def dptccrReset (p : Params) : Word := if p.hasSdma then 0x102 else 0x002

/-- DCVR0 to DCVR3 at reset. The spec gives none (10_state R36): DESIGN CHOICE 0, log 3. -/
def dcvrReset : Quad := ⟨0, 0, 0, 0⟩

/-- Init parses the default table; if that fails there is none (70 R352, R353). -/
def tableReset (p : Params) (allocOk : Bool) : Option Table :=
  match parse p p.defaultTableText allocOk with
  | .ok t => some t
  | .error _ => none

/-- The voltage of the seed entry: LOG_VOLTAGE of working point 0, or 0 without a table (70 R354). -/
def seedVoltage (p : Params) (t : Option Table) : Word :=
  match t with
  | some t => logVoltage p.logVoltageFn (t.wp.headD [])
  | none => 0

/-- The seed entry of the log (70 R354). -/
def seedEntry (p : Params) (t : Option Table) (now : Nat) : LogEntry :=
  { timestamp := BitVec.ofNat 32 now, workingPoint := 0, voltage := seedVoltage p t, frequencyIndex := 0 }

end Sys2Proof.Machine
end

