-- ==== Sys2Proof/Machine/Log.lean ====
section
/-! DEFINITION. The diagnostic log ring and its records (10_state R48, R49; 46 R300, R303). -/

namespace Sys2Proof.Machine

/-- The log ring buffer (10_state R48). A slot that nothing has written holds no value. -/
structure LogRing where
  buf : List (Option LogEntry)
  head : Nat
  tail : Nat
  deriving DecidableEq, Repr

/-- The empty ring of `cap` slots (70 R354). -/
def emptyLog (cap : Nat) : LogRing := { buf := List.replicate cap none, head := 0, tail := 0 }

/-- `log_insert` on the ring: store at head, advance head, and if it meets tail advance tail (46 R300). -/
def logPush (cap : Nat) (l : LogRing) (e : LogEntry) : LogRing :=
  { buf := l.buf.set l.head (some e)
    head := (l.head + 1) % cap
    tail := if (l.head + 1) % cap = l.tail then (l.tail + 1) % cap else l.tail }

/-- The number of retained entries: `(head − tail + cap) % cap` (10_state R49). -/
def logCount (cap : Nat) (l : LogRing) : Nat := (l.head + cap - l.tail) % cap

/-- The entry in a slot. A slot that nothing has written holds no value: a free one (93 I18, log 24). -/
def logSlot (l : LogRing) (i : Nat) : LogEntry :=
  match l.buf[i]? with
  | some (some e) => e
  | _ => Config.unwrittenLogSlot i

/-- The `n` oldest entries, oldest first (46 R302). -/
def logOldest (cap : Nat) (l : LogRing) (n : Nat) : List LogEntry :=
  (List.range n).map (fun i => logSlot l ((l.tail + i) % cap))

/-- The ring after the `n` oldest entries are drained (46 R302). -/
def logDrop (cap : Nat) (l : LogRing) (n : Nat) : LogRing := { l with tail := (l.tail + n) % cap }

/-- A record: four little-endian words, 16 bytes (46 R303). -/
def logRecord (e : LogEntry) : List Byte :=
  wordBytes e.timestamp ++ wordBytes e.workingPoint ++ wordBytes e.voltage ++ wordBytes e.frequencyIndex

/-- The log after init: one insert of the seed entry into the empty ring (70 R354). -/
def logReset (p : Params) (t : Option Table) (now : Nat) : LogRing :=
  logPush p.logCapacity (emptyLog p.logCapacity) (seedEntry p t now)

end Sys2Proof.Machine
end

