-- ==== Sys2Proof/Machine/Memory.lean ====
section
/-! DEFINITION. The DATA window as a list of cells in one canonical form (20_memory R70, R73; 10_state R44). A
cell's key is the byte's offset in the window, 0 to 8191. -/

namespace Sys2Proof.Machine

/-- The DATA window: (offset, byte) pairs, offsets strictly rising, no byte listed that an unlisted offset
reads as anyway. -/
abbrev Memory := List Host.Cell

namespace Memory

/-- DATA_SIZE (00_scope R8). -/
def size : Nat := 8192

/-- What a byte that nothing has written reads as. The spec leaves it open (10_state R44, 93 I6): DESIGN CHOICE
0, log 4. -/
def unlistedByte : Byte := 0

/-- The byte at an offset. -/
def read : Memory → Nat → Byte
  | [], _ => unlistedByte
  | (k, v) :: m, a => if a = k then v else read m a

/-- Put one byte at its place and keep the canonical form. -/
def insert : Memory → Nat → Byte → Memory
  | [], a, b => if b = unlistedByte then [] else [(a, b)]
  | (k, v) :: m, a, b =>
    if a < k then (if b = unlistedByte then (k, v) :: m else (a, b) :: (k, v) :: m)
    else if a = k then (if b = unlistedByte then m else (a, b) :: m)
    else (k, v) :: insert m a b

/-- Store one byte. There is no byte outside the window (20_memory R70, R73): no rule stores to one. -/
def write (m : Memory) (a : Nat) (b : Byte) : Memory := if a < size then insert m a b else m

/-- MemRead: `n` bytes from offset `a` (20_memory R73). -/
def readBytes (m : Memory) : Nat → Nat → List Byte
  | _, 0 => []
  | a, n + 1 => read m a :: readBytes m (a + 1) n

/-- MemWrite: the bytes at offsets `a`, `a+1`, … (20_memory R73). -/
def writeBytes (m : Memory) : Nat → List Byte → Memory
  | _, [] => m
  | a, b :: bs => writeBytes (write m a b) (a + 1) bs

/-- Offsets above `lo` that rise strictly, inside the window, each byte different from `unlistedByte`. -/
def wfFrom : Nat → Memory → Bool
  | _, [] => true
  | lo, (k, v) :: m => lo ≤ k && k < size && v != unlistedByte && wfFrom (k + 1) m

/-- The canonical form. -/
def wf (m : Memory) : Bool := wfFrom 0 m

end Memory

end Sys2Proof.Machine
end

