-- ==== Sys2Proof/Machine/State.lean ====
section
/-! DEFINITION. The state of the PCS (10_state), as plain data, the reasons a step can stop, and the state after
reset (70 R350 to R355). -/

namespace Sys2Proof.Machine

/-- The agents that hold locks (10_state R51). -/
inductive Agent where
  | seq
  | rx
  deriving DecidableEq, Repr

/-- A lock: free, or held by an agent (10_state R51). -/
inductive Lock where
  | free
  | held (a : Agent)
  deriving DecidableEq, Repr

/-- Why the machine stops. Each is a situation the spec itself calls a fault (00_scope R15, R12, 60 R325), but for
`noTable` and `wpOutOfRange`, where it gives no meaning (log 16). All are safe: the model stops where a chip would go
on in a way the spec does not give. An agent that is only stuck is no fault (00_scope R15). -/
inductive Fault where
  /-- The clock model computes with MFD = 0 or MFI < 5 (41 R121). Raised by the DVFS commands, GET_CPU_FREQ and
  DPTC_ENABLE. Safe. -/
  | pllFieldReserved
  /-- The clock model computes with BRMM above 4 (41 R122). Raised by GET_CPU_FREQ and DPTC_ENABLE. Safe. -/
  | brmmReserved
  /-- The divisor of a BRMM point is 0 (41 R122). Raised by GET_CPU_FREQ and DPTC_ENABLE. Safe. -/
  | brmmDivisorZero
  /-- A computed MFI above MFI_MAX (41 R136). Raised by DVFS_PLLSCALE. Safe. -/
  | mfiOverflow
  /-- adjust_dividers sees an AHB or IPG target below 1 MHz (41 R131). Raised by DVFS_INTSCALE and DVFS_PLLSCALE,
  only on parameters that 70 R356 excludes. Safe. -/
  | dividerTargetBelowMhz
  /-- A division by zero that no rule excludes: BUS_MAX_HZ = 0 or REF_HZ = 0 (00_scope R12), only on parameters
  that 70 R356 excludes. Raised by DVFS_RELOCK and DVFS_PLLSCALE. Safe. -/
  | zeroDivisor
  /-- FREQ_INDEX_OF gives an index of no frequency state (43 R190). Raised by DPTC_ENABLE. Safe. -/
  | freqIndexOutOfRange
  /-- update_thresholds is called out of range (43 R198). Raised by set_wp and DPTC_ENABLE in a state without the
  invariants of 10_state R47. Safe. -/
  | thresholdsOutOfRange
  /-- A rule that reads the table runs while none is installed: a reaction the HOST provoked by writing DPTCCR
  itself (log 16). Safe. -/
  | noTable
  /-- apply_voltage or a log entry needs a working point the table does not have (log 16). Safe. -/
  | wpOutOfRange
  deriving DecidableEq, Repr

/-- Why an instruction has no meaning here. No arm of `exec` answers with it. -/
inductive Refusal where
  /-- The command has no meaning yet. Raised by an arm of `exec` that is not modelled; safe. -/
  | notModelled (mnemonic : String)
  deriving DecidableEq, Repr

/-- The working point set_wp is asked for (43 R192): a number, or the current one plus a number (44 R235). -/
inductive WpTarget where
  | abs (n : Int)
  | rel (d : Int)
  deriving DecidableEq, Repr

/-- One `▸` line of a procedure that both SEQ and RX run (00_scope R14). -/
inductive Op where
  /-- `modify(r, mask, value)` or `CSR.r.F <- v` under reg_lock (00_scope R13, 20_memory R80). -/
  | modify (r : Csr) (mask value : Word)
  /-- `CSR.r <- v`, a write of the whole register (00_scope R13). -/
  | write (r : Csr) (v : Word)
  /-- `modify(DPTCCR, 0xF0, S.rc_state << 4)` (43 R190). -/
  | rcEnable
  /-- The first line of `set_wp` (43 R192). -/
  | setWp (t : WpTarget)
  /-- `S.T.curr_wp <- w` (43 R192), where it is not the first line. -/
  | setCurrWp (w : Nat)
  /-- The first line of `update_thresholds(S.current_freq_index, w)` (43 R198); `none` is `S.T.curr_wp`. -/
  | thresholds (w : Option Nat)
  /-- `c <- PMIC.get(ch)` of `apply_voltage(w)` (43 R199). -/
  | pmicGet (ch : PmicChannel) (w : Nat)
  /-- `PMIC.set(ch, PMIC_MERGE(ch, c, S.T.wp[w].val))` (43 R199). -/
  | pmicSet (ch : PmicChannel) (w : Nat) (c : Word)
  /-- `log_insert()` (46 R300). -/
  | logInsert
  deriving DecidableEq, Repr

/-- What SEQ does with a register it has read: the pure lines that follow the read, with what the command had
computed before it (41 R125, R135, R140, 42 R170). -/
inductive Cont where
  /-- DVFS_INTSCALE after `p <- CSR.PLLSR`. -/
  | intPllsr
  /-- DVFS_INTSCALE after `r <- CSR.active(p)`, `turbo` saying which PLL that is. -/
  | intPll (turbo : Bool)
  /-- DVFS_INTSCALE after the first `d <- CSR.DIV`. -/
  | intDiv (pll : Nat)
  /-- DVFS_INTSCALE after the second `d <- CSR.DIV`. -/
  | intDivAgain (pll : Nat)
  /-- DVFS_PLLSCALE after `p <- CSR.PLLSR`. -/
  | plsPllsr
  /-- DVFS_PLLSCALE after `r <- CSR.X`. -/
  | plsPll (turbo : Bool)
  /-- DVFS_PLLSCALE after `d <- CSR.DIV`. -/
  | plsDiv (turbo : Bool) (r : Word)
  /-- DVFS_RELOCK after `p <- CSR.PLLSR`. -/
  | rlkPllsr
  /-- DVFS_RELOCK after the read of the target PLL. -/
  | rlkPll
  /-- LPM_ENTER after `g <- CSR.DBGSR`. -/
  | lpmProbe
  deriving DecidableEq, Repr

/-- What SEQ does with the CPU frequency it has read (41 R151, 43 R190). -/
inductive ClockUse where
  /-- GET_CPU_FREQ returns it. -/
  | report
  /-- DPTC_ENABLE takes the frequency index from it. -/
  | freqIndex
  deriving DecidableEq, Repr

/-- The PLLSR bit a poll waits for (41 R143, R144). -/
inductive PollBit where
  | lock (target : Bool)
  | swDone
  deriving DecidableEq, Repr

/-- An assignment of SEQ to one state variable (10_state R45). -/
inductive Assign where
  | dptcActive (b : Bool)
  | dvfsActive (b : Bool)
  | freqIndex (n : Nat)
  /-- `S.current_freq_index <- FREQ_INDEX_OF(cpu, S.T)` (43 R190). -/
  | freqIndexOf (cpuHz : Nat)
  /-- `S.rc_state <- S.rc_state | m` (43 R200). -/
  | rcOr (m : BitVec 4)
  /-- `S.rc_state <- S.rc_state & ~m` (43 R201). -/
  | rcAndNot (m : BitVec 4)
  deriving DecidableEq, Repr

/-- One line SEQ still has to run: a `▸` line, or a completion step (00_scope R14, 60 R320). -/
inductive SeqLine where
  /-- The command has not begun: its checks and its first `▸` line. -/
  | start
  /-- A line of a shared procedure. -/
  | op (o : Op)
  /-- `acquire dvfs_lock` (41 R120). -/
  | acquireDvfs
  /-- A read of one register. -/
  | read (r : Csr) (k : Cont)
  /-- The one-step read of PLLSR, the active PLL and DIV (41 R151, 43 R190). -/
  | readClock (k : ClockUse)
  /-- `poll PLLSR.F until 1` (41 R143, R144). -/
  | poll (b : PollBit)
  /-- An assignment to a state variable. -/
  | assign (a : Assign)
  /-- `saved <- S.irq_off; S.irq_off <- true` of LPM_ENTER in a mode (42 R172). -/
  | lpmBracket (mode : Nat)
  /-- `wait_for_interrupt` (42 R176). -/
  | wfi
  /-- `S.irq_off <- saved` (42 R177). -/
  | restoreIrq (saved : Bool)
  /-- `text <- MemRead(DATA, 0, len); ok <- alloc_ok` (45 R263). -/
  | readText (len : Nat)
  /-- The busy check and the swap (45 R263, R266). -/
  | swap (t : Table)
  /-- `MemWrite(DATA, 0, |s|, s)` (45 R269). -/
  | memWrite (bytes : List Byte)
  /-- The drain of LOG_READ (46 R302). -/
  | drainLog (n : Nat)
  /-- `S.suspended <- b; return`, one line (46 R292, R293). -/
  | setSuspended (b : Bool)
  /-- `return (v0, v1)` (60 R320). -/
  | ret (v0 v1 : Word)
  /-- `return S.T.curr_wp` (43 R196). -/
  | retCurrWp
  /-- `raise E(d)` on a line of its own (60 R320). -/
  | raise (e : Err)
  /-- A pure line the spec gives no meaning to (00_scope R15), as a step of its own after the line it follows:
  DESIGN CHOICE, R14 names no moment for it (log 31). -/
  | stop (f : Fault)
  deriving DecidableEq, Repr

/-- One line RX still has to run (44 R235 to R237). -/
inductive RxLine where
  | op (o : Op)
  /-- `a <- S.dptc_active` and the test of `rearm()`. -/
  | rearm
  /-- `S.rx <- Idle`. -/
  | idle
  deriving DecidableEq, Repr

/-- A running command: the word written to CMD, the copies of ARG0 to ARG3, and the lines still to run, the next
one first (10_state R21, R39). -/
structure Job where
  word : Word
  args : Args
  todo : List SeqLine
  deriving DecidableEq, Repr

/-- The SEQ position `S.seq` (10_state R21). -/
inductive SeqPos where
  | idle
  | run (job : Job)
  deriving DecidableEq, Repr

/-- The RX position `S.rx` (10_state R21, 44 R234). -/
inductive RxPos where
  | idle
  | run (todo : List RxLine)
  deriving DecidableEq, Repr

/-- A cause the DPTC hardware can raise (10_state R33). -/
inductive Cause where
  | decrease
  | increase
  | emergency
  deriving DecidableEq, Repr

/-- Whose step comes next, with the choice the world outside makes in it (00_scope R10, R16). The MODEL's own
(log 6). -/
inductive Input where
  /-- SEQ steps. -/
  | seq
  /-- RX steps. -/
  | rx
  /-- IRQ steps. -/
  | irq
  /-- The HOST accesses the bus (20_memory R70, R88). -/
  | host (a : HostAccess)
  /-- ENV_PLL: the target PLL locks (10_state R27 step 1). -/
  | pllLock
  /-- ENV_PLL: the switch completes (10_state R27 step 2). -/
  | pllDone
  /-- ENV_DPTC raises a cause (10_state R33). -/
  | dptcCause (c : Cause)
  /-- ENV_SDMA selects a working point and raises a cause (10_state R35). -/
  | sdma (w : Nat) (c : Cause)
  /-- ENV_WAKE ends a low-power wait (42 R176). -/
  | wake
  /-- ENV_DBG drives PROBE_ATTACHED (10_state R30). -/
  | probe (b : Bool)
  /-- ENV_PMIC answers calls, or stops answering them (20_memory R89). -/
  | pmicStall (b : Bool)
  /-- The configuration ENV_PMIC next answers for a channel (00_scope R16). -/
  | pmicConfig (ch : PmicChannel) (v : Word)
  /-- Whether the coming allocations succeed: the draw alloc_ok (00_scope R10). -/
  | alloc (b : Bool)
  /-- Time passes: the draw timestamp grows by `n` (00_scope R10). -/
  | tick (n : Nat)
  /-- Reset (70 R350). -/
  | reset
  deriving DecidableEq, Repr

/-- The world outside the PCS. The MODEL's own fields: the draws and agents of 00_scope R10 and R16. -/
structure Env where
  /-- DBGSR.PROBE_ATTACHED, driven by ENV_DBG (10_state R30). -/
  probe : Bool
  /-- The regulator's configuration word of each channel (20_memory R70). -/
  pmicPrimary : Word
  pmicSecondary : Word
  /-- ENV_PMIC does not answer (20_memory R89). -/
  pmicStalled : Bool
  /-- The draw alloc_ok (00_scope R10). -/
  allocOk : Bool
  /-- The time whose low 32 bits are the draw timestamp (00_scope R10). -/
  now : Nat
  /-- What the HOST's last read returned. -/
  hostData : Word
  /-- The HOST is stuck at an access the bus does not admit (00_scope R15, 20_memory R72). -/
  hostStuck : Bool
  /-- The coming steps, the next first. -/
  inputs : List Input
  deriving DecidableEq, Repr

/-- The state of the PCS (10_state). -/
structure State where
  params : Params
  div : Word
  mpll : Word
  tpll : Word
  pllsr : Word
  lpmcr : Word
  inten : Word
  dptccr : Word
  dcvr : Quad
  dvfscr : Word
  args : Args
  result : Word
  rval0 : Word
  rval1 : Word
  psr : Word
  data : Memory
  dptcActive : Bool
  dvfsActive : Bool
  suspended : Bool
  rcState : BitVec 4
  currentFreqIndex : Nat
  prevWp : Nat
  table : Option Table
  log : LogRing
  mbPending : Bool
  mbCause : BitVec 2
  regLock : Lock
  dvfsLock : Lock
  logMutex : Lock
  irqOff : Bool
  seq : SeqPos
  rx : RxPos
  /-- The PLL a switch in progress ends on (10_state R27, 93 I11; log 18). -/
  pllTarget : Bool
  env : Env
  deriving DecidableEq, Repr

/-- Reset: hardware reset and init as one transition, in a world `e` outside (70 R350 to R355). -/
def State.resetIn (p : Params) (e : Env) : State where
  params := p
  div := divReset p
  mpll := mpllReset p
  tpll := tpllReset p
  pllsr := pllsrReset p
  lpmcr := 0
  inten := intenReset
  dptccr := dptccrReset p
  dcvr := dcvrReset
  dvfscr := 0
  args := ⟨0, 0, 0, 0⟩
  result := 0
  rval0 := 0
  rval1 := 0
  psr := 0
  data := []
  dptcActive := false
  dvfsActive := false
  suspended := false
  rcState := p.rcStateInit
  currentFreqIndex := 0
  prevWp := 0
  table := tableReset p e.allocOk
  log := logReset p (tableReset p e.allocOk) e.now
  mbPending := false
  mbCause := 0
  regLock := .free
  dvfsLock := .free
  logMutex := .free
  irqOff := false
  seq := .idle
  rx := .idle
  pllTarget := divPllSel (divReset p)
  env := e

/-- The world outside at power-on: no probe, the regulator at 0 and answering, allocations succeed, time 0,
the HOST not stuck, nothing coming. DESIGN CHOICE, logs 5, 6, 8, 9, 10, 23. -/
def Env.quiet : Env where
  probe := false
  pmicPrimary := 0
  pmicSecondary := 0
  pmicStalled := false
  allocOk := true
  now := 0
  hostData := 0
  hostStuck := false
  inputs := []

/-- The machine of a parameter set right after reset. -/
def State.resetWith (p : Params) : State := State.resetIn p Env.quiet

/-- The machine right after reset, with the parameters PS-A of 95_test_vectors §0 (log 1). -/
def State.reset : State := State.resetWith paramsA

end Sys2Proof.Machine
end

