-- ==== Sys2Proof/Machine/Clock.lean ====
section
/-! DEFINITION. The clock model and the arithmetic of the DVFS controller (41 R121, R122, R127 to R129, R131 to
R133, R136, R137, R142). Pure functions. -/

namespace Sys2Proof.Machine

/-- BRMM_MAX (00_scope R8). -/
def brmmMax : Nat := 4
/-- MFI_MIN (00_scope R8). -/
def mfiMin : Nat := 5
/-- MFI_MAX (00_scope R8). -/
def mfiMax : Nat := 15
/-- MFN_MIN (00_scope R8). -/
def mfnMin : Int := -1024
/-- MFN_MAX (00_scope R8). -/
def mfnMax : Int := 1023
/-- AHB_PDF_MAX (00_scope R8). -/
def ahbPdfMax : Nat := 7
/-- IPG_PDF_MAX (00_scope R8). -/
def ipgPdfMax : Nat := 3

/-- `mhz(x)`, floor (41, decision D11). -/
def mhz (hz : Nat) : Nat := hz / 1000000

/-- The clock model has no meaning for the PLL register: MFD 0 or MFI below MFI_MIN (41 R121, 93 I2). -/
def pllReserved (r : Word) : Bool := pllMfd r == 0 || pllMfi r < mfiMin

/-- `pll_hz(R)` of the reference definition (41 R121). R121 says that the numerator is above 0 whenever MFI is at
least 5, which small MFD with a negative MFN contradicts: there the frequency is a free value (log 17). -/
def pllFormula (refHz : Nat) (r : Word) : Except Fault Nat :=
  if pllReserved r then .error .pllFieldReserved
  else
    let num : Int := 2 * (refHz : Int) * ((pllMfi r * pllMfd r : Nat) + pllMfn r)
    if num < 0 then .ok (Config.pllBelowZero refHz r)
    else .ok (num.toNat / (pllMfd r * (pllPdf r + 1)))

/-- The register of a PLL. -/
def pllCsr (turbo : Bool) : Csr := if turbo then .tpll else .mpll

/-- `active(p)`: the PLL that drives the core (41 R121). -/
def activePll (pllsr : Word) : Csr := pllCsr (pllsrCurPll pllsr)

/-- The AHB clock: PLL clock / (AHB_PDF + 1) (41 R121). -/
def ahbHz (pll : Nat) (d : Word) : Nat := pll / (divAhbPdf d + 1)

/-- The IPG clock: AHB clock / (IPG_PDF + 1) (41 R121). -/
def ipgHz (ahb : Nat) (d : Word) : Nat := ahb / (divIpgPdf d + 1)

/-- `brmm_point(pll, ahb, k)` (41 R122). -/
def brmmPoint (pll ahb k : Nat) : Except Fault Nat :=
  if brmmMax < k then .error .brmmReserved
  else if (4 - k) * ahb + k * pll = 0 then .error .brmmDivisorZero
  else .ok (4 * pll * ahb / ((4 - k) * ahb + k * pll))

/-- A clock computed from its PLL's frequency: the PLL itself, or the lines of R121 for AHB, IPG and CPU. -/
def clockOfPll (pll : Nat) : ClockQuery → Except Fault Nat
  | .pll _ _ => .ok pll
  | .ahb _ _ d => .ok (ahbHz pll d)
  | .ipg _ _ d => .ok (ipgHz (ahbHz pll d) d)
  | .cpu _ _ d => brmmPoint pll (ahbHz pll d) (divBrmm d)

/-- The register of the PLL a clock is computed from. -/
def queryPllWord : ClockQuery → Word
  | .pll _ r => r
  | .ahb _ r _ => r
  | .ipg _ r _ => r
  | .cpu _ r _ => r

/-- The reference definition of CLOCK_MODEL (41 R121). -/
def clockReference (refHz : Nat) (q : ClockQuery) : Except Fault Nat :=
  match pllFormula refHz (queryPllWord q) with
  | .error f => .error f
  | .ok pll => clockOfPll pll q

/-- The fault of a clock model that would compute with a reserved field: the PLL's fields, and for the CPU clock
BRMM above 4. It is no choice of CLOCK_MODEL (60 R325, 93 I1, I2). -/
def clockFault (q : ClockQuery) : Option Fault :=
  if pllReserved (queryPllWord q) then some .pllFieldReserved
  else
    match q with
    | .cpu _ _ d => if brmmMax < divBrmm d then some .brmmReserved else none
    | _ => none

/-- CLOCK_MODEL where it is not the reference definition: a free value, but for the reserved fields (log 20). -/
def clockFree (q : ClockQuery) : Except Fault Nat :=
  match clockFault q with
  | some f => .error f
  | none => .ok (Config.clockModel q)

/-- CLOCK_MODEL (00_scope R9, 41 R121). -/
def clockHz (p : Params) (q : ClockQuery) : Except Fault Nat :=
  match p.clockModelFn with
  | .reference => clockReference p.refHz q
  | .free => clockFree q

/-- `pll_hz(R)` of a rule: CLOCK_MODEL of that PLL (41 R121). -/
def pllHz (p : Params) (turbo : Bool) (r : Word) : Except Fault Nat := clockHz p (.pll turbo r)

/-- CLOCK_MODEL's CPU frequency (43 R190). -/
def cpuHz (p : Params) (turbo : Bool) (r d : Word) : Except Fault Nat := clockHz p (.cpu turbo r d)

/-- `cpu` of GET_CPU_FREQ, whose line takes the BRMM point of `pll_hz(r)` (41 R151; log 20). -/
def cpuPoint (p : Params) (turbo : Bool) (r d : Word) : Except Fault Nat :=
  match pllHz p turbo r with
  | .error f => .error f
  | .ok pll => brmmPoint pll (ahbHz pll d) (divBrmm d)

/-- `validate(req, bus, per, cap)`: the first check that fails (41 R123). -/
def validate (p : Params) (a : Args) (cap : Bool) : Option Err :=
  if !cap then some .apiNotSupported
  else if u32 a.a1 ≠ p.busMaxHz ∨ u32 a.a2 ≠ p.perMaxHz then some .busFrequencyInvalid
  else if u32 a.a0 < p.armMinHz ∨ p.armMaxHz < u32 a.a0 then some .invalidArmFrequency
  else none

/-- `req` is exactly the period-domain point `k` (41 R128). -/
def brmmExact (req pll ahb k : Nat) : Bool := req * ((4 - k) * ahb + k * pll) == 4 * pll * ahb

/-- `err(k)`, proportional to the period error of point `k` (41 R129). -/
def brmmErr (req pll ahb k : Nat) : Nat :=
  ((4 * pll * ahb : Nat) - (req * ((4 - k) * ahb + k * pll) : Nat) : Int).natAbs

/-- The nearer of two points; the first on a tie (41 R129). -/
def brmmBetter (req pll ahb j k : Nat) : Nat :=
  if brmmErr req pll ahb k < brmmErr req pll ahb j then k else j

/-- `find_nearest_brmm`: the smallest `k` whose error is least (41 R129). -/
def nearestBrmm (req pll ahb : Nat) : Nat := [1, 2, 3, 4].foldl (brmmBetter req pll ahb) 0

/-- `calc_brmm`: the exact point if there is one, else the nearest (41 R128). -/
def calcBrmm (req pll ahb : Nat) : Nat :=
  match [0, 1, 2, 3, 4].find? (brmmExact req pll ahb) with
  | some k => k
  | none => nearestBrmm req pll ahb

/-- The AHB setting already matches the target (41 R127). -/
def ahbMatches (pll bus : Nat) (d : Word) : Bool := mhz pll / (divAhbPdf d + 1) == mhz bus

/-- The smallest divider field of R132 and R133 before the check against its maximum: `max(0, x/y − 1)`, one more
if the result is still above the ceiling. -/
def pdfFor (x y : Nat) : Nat := if y < x / (x / y - 1 + 1) then x / y - 1 + 1 else x / y - 1

/-- `ahb_pdf(arm, ahb)` (41 R132). -/
def ahbPdf (arm ahb : Nat) : Except Err Nat :=
  if ahbPdfMax < pdfFor arm ahb then .error .ahbMaxDividerExceeded else .ok (pdfFor arm ahb)

/-- `ipg_pdf(ahb_achieved, ip)` (41 R133). -/
def ipgPdf (ahbAchieved ip : Nat) : Except Err Nat :=
  if ipgPdfMax < pdfFor ahbAchieved ip then .error .ipgMaxDividerExceeded else .ok (pdfFor ahbAchieved ip)

/-- The value of the divider write: `(max_pdf << 3) | (ipg_pdf << 6)` (41 R131). -/
def dividerValue (ahb ipg : Nat) : Word := (BitVec.ofNat 32 ahb <<< 3) ||| (BitVec.ofNat 32 ipg <<< 6)

/-- The pure part of `adjust_dividers`: a fault, an error or the value to write (41 R131). -/
def dividers (armHz ahbHz ipHz : Nat) : Except Fault (Except Err Word) :=
  if mhz ahbHz = 0 ∨ mhz ipHz = 0 then .error .dividerTargetBelowMhz
  else
    match ahbPdf (mhz armHz) (mhz ahbHz) with
    | .error e => .ok (.error e)
    | .ok a =>
      match ipgPdf (mhz armHz / (a + 1)) (mhz ipHz) with
      | .error e => .ok (.error e)
      | .ok i => .ok (.ok (dividerValue a i))

/-- `clamp(x, lo, hi)` (00_scope R12). -/
def clamp (x lo hi : Int) : Int := max lo (min hi x)

/-- `total` of pll_fields: `MFI * MFD + MFN` before clamping (41 R136). -/
def pllTotal (p : Params) (req pdf mfd : Nat) : Nat := req * (pdf + 1) * mfd / (2 * p.refHz)

/-- `pll_fields(req, pdf, mfd)` (41 R136). -/
def pllFields (p : Params) (req pdf mfd : Nat) : Except Fault (Nat × Int) :=
  if mfd = 0 then .error .pllFieldReserved
  else if p.refHz = 0 then .error .zeroDivisor
  else if mfiMax < max (pllTotal p req pdf mfd / mfd) mfiMin then .error .mfiOverflow
  else .ok (max (pllTotal p req pdf mfd / mfd) mfiMin, clamp (pllTotal p req pdf mfd % mfd : Nat) mfnMin mfnMax)

/-- The register with new MFI and MFN and the MFD and PDF it had (41 R135). -/
def pllWith (r : Word) (mfi : Nat) (mfn : Int) : Word := pllWord (pllPdf r) (pllMfd r) mfi mfn

/-- What PLL scaling computes from the registers it has read: the current frequency, the word to write, and the
frequency that word gives (41 R135 to R137). -/
def pllScale (p : Params) (turbo : Bool) (req : Nat) (r : Word) : Except Fault (Nat × Word × Nat) :=
  match pllHz p turbo r, pllFields p req (pllPdf r) (pllMfd r) with
  | .error f, _ => .error f
  | .ok _, .error f => .error f
  | .ok cur, .ok (mfi, mfn) =>
    match pllHz p turbo (pllWith r mfi mfn) with
    | .error f => .error f
    | .ok new =>
      if req < new ∧ req ≤ cur then
        match pllHz p turbo (pllWith r mfi (pllMfn r)) with
        | .error f => .error f
        | .ok new' => .ok (cur, pllWith r mfi (pllMfn r), new')
      else .ok (cur, pllWith r mfi mfn, new)

/-- The AHB divider of a relock: the smallest with `f_t / (pdf + 1) ≤ BUS_MAX_HZ` (41 R140, R142). -/
def relockPdf (f bus : Nat) : Nat := (f + bus - 1) / bus - 1

/-- The value of the combined write: PLL_SEL, AHB_PDF and BRMM 0 (41 R142). -/
def relockValue (target : Word) (pdf : Nat) : Word := (target <<< 8) ||| (BitVec.ofNat 32 pdf <<< 3)

end Sys2Proof.Machine
end

