-- ==== Sys2Proof/Machine/Ops.lean ====
section
/-! DEFINITION. The named operations over the state: registers (10_state R22 to R43, 20_memory R78), the end of
a command (60 R320), locks (10_state R51), the table and the log, the regulator (43 R199), and the interrupt's
entry and return (44 R231, 60 R336, R337). -/

namespace Sys2Proof.Machine

/-! ### Registers -/

/-- A read of a CSR register (10_state R22). DBGSR is the probe bit ENV_DBG drives (R30). -/
def State.readCsr (s : State) : Csr → Word
  | .div => s.div
  | .mpll => s.mpll
  | .tpll => s.tpll
  | .pllsr => s.pllsr
  | .lpmcr => s.lpmcr
  | .dbgsr => bitWord s.env.probe
  | .inten => s.inten
  | .dptccr => s.dptccr
  | .dcvr0 => s.dcvr.v0
  | .dcvr1 => s.dcvr.v1
  | .dcvr2 => s.dcvr.v2
  | .dcvr3 => s.dcvr.v3
  | .dvfscr => s.dvfscr

/-- A write of DIV. A change of PLL_SEL while no switch is in progress starts one: DFSP_BUSY is set in the same
step and the target is latched; during a switch only the field is stored (10_state R23, R27, 93 I11; log 18). -/
def State.writeDiv (s : State) (v : Word) : State :=
  if divPllSel (v &&& divMask s.params) ≠ divPllSel s.div ∧ pllsrBusy s.pllsr = false then
    { s with div := v &&& divMask s.params
             pllsr := s.pllsr ||| 0x4
             pllTarget := divPllSel (v &&& divMask s.params) }
  else { s with div := v &&& divMask s.params }

/-- A write of a CSR register: reserved and read-only bits are ignored, W1C bits clear (10_state R23 to R38,
20_memory R78). -/
def State.writeCsr (s : State) (r : Csr) (v : Word) : State :=
  match r with
  | .div => s.writeDiv v
  | .mpll => { s with mpll := v &&& pllMask }
  | .tpll => { s with tpll := v &&& tpllMask s.params }
  | .pllsr => { s with pllsr := pllsrWrite s.pllsr v }
  | .lpmcr => { s with lpmcr := v &&& lpmcrMask }
  | .dbgsr => s
  | .inten => { s with inten := v &&& intenMask }
  | .dptccr => { s with dptccr := dptccrWrite s.params s.dptccr v }
  | .dcvr0 => { s with dcvr := { s.dcvr with v0 := v } }
  | .dcvr1 => { s with dcvr := { s.dcvr with v1 := v } }
  | .dcvr2 => { s with dcvr := { s.dcvr with v2 := v } }
  | .dcvr3 => { s with dcvr := { s.dcvr with v3 := v } }
  | .dvfscr => { s with dvfscr := v &&& dvfscrMask s.params }

/-- `modify(X, mask, value)` (00_scope R13). -/
def State.modifyCsr (s : State) (r : Csr) (mask value : Word) : State :=
  s.writeCsr r (merge (s.readCsr r) mask value)

/-! ### The command port -/

/-- A HOST write of CMD (10_state R39): it starts SEQ with copies of ARG0 to ARG3 and clears the results, or, while
BUSY, is dropped and sets OVR. -/
def State.writeCmd (s : State) (c : Word) : State :=
  if psrBusy s.psr then { s with psr := s.psr ||| 0x2 }
  else { s with psr := s.psr ||| 0x1, result := 0, rval0 := 0, rval1 := 0,
                seq := .run { word := c, args := s.args, todo := [.start] } }

/-- A read of a command-port register; CMD reads as 0 (10_state R39 to R43). -/
def State.readPort (s : State) : PortReg → Word
  | .cmd => 0
  | .arg0 => s.args.a0
  | .arg1 => s.args.a1
  | .arg2 => s.args.a2
  | .arg3 => s.args.a3
  | .result => s.result
  | .rval0 => s.rval0
  | .rval1 => s.rval1
  | .psr => s.psr

/-- A HOST write of a command-port register; RESULT and RVAL are read-only (10_state R39 to R43). -/
def State.writePort (s : State) (r : PortReg) (v : Word) : State :=
  match r with
  | .cmd => s.writeCmd v
  | .arg0 => { s with args := { s.args with a0 := v } }
  | .arg1 => { s with args := { s.args with a1 := v } }
  | .arg2 => { s with args := { s.args with a2 := v } }
  | .arg3 => { s with args := { s.args with a3 := v } }
  | .result => s
  | .rval0 => s
  | .rval1 => s
  | .psr => { s with psr := psrWrite s.psr v }

/-- What every end of a command does: BUSY clears, SEQ is idle, and dvfs_lock is released with interrupts enabled
if SEQ holds it (60 R320, 41 R120). -/
def State.endCommand (s : State) : State :=
  { s with psr := s.psr &&& ~~~0x1
           seq := .idle
           dvfsLock := if s.dvfsLock = .held .seq then .free else s.dvfsLock
           irqOff := if s.dvfsLock = .held .seq then false else s.irqOff }

/-- `return (v0, v1)` (60 R320, 10_state R41, R42). -/
def State.finish (s : State) (v0 v1 : Word) : State :=
  { s.endCommand with result := 0, rval0 := v0, rval1 := v1 }

/-- `raise E(d)`: RVAL0 and RVAL1 stay as the start of the command left them (60 R320, 10_state R42). -/
def State.raiseErr (s : State) (e : Err) : State := { s.endCommand with result := e.result }

/-! ### The table, the log and the regulator -/

/-- `S.table_valid` (10_state R45): a table is installed. -/
def State.tableValid (s : State) : Bool := s.table.isSome

/-- The regulator's configuration of a channel (43 R199). -/
def Env.pmic (e : Env) : PmicChannel → Word
  | .primary => e.pmicPrimary
  | .secondary => e.pmicSecondary

/-- Set the regulator's configuration of a channel (43 R199). -/
def Env.setPmic (e : Env) (ch : PmicChannel) (v : Word) : Env :=
  match ch with
  | .primary => { e with pmicPrimary := v }
  | .secondary => { e with pmicSecondary := v }

/-- The log entry of this moment (46 R301); none without a table or with a working point it does not have. -/
def State.logEntry (s : State) : Except Fault LogEntry :=
  match s.table with
  | none => .error .noTable
  | some t =>
    match t.wp[t.currWp]? with
    | none => .error .wpOutOfRange
    | some vals =>
      .ok { timestamp := BitVec.ofNat 32 s.env.now
            workingPoint := BitVec.ofNat 32 t.currWp
            voltage := logVoltage s.params.logVoltageFn vals
            frequencyIndex := BitVec.ofNat 32 s.currentFreqIndex }

/-- The working point set_wp sets: the clamp of its argument (43 R192). -/
def clampWp (t : Table) : WpTarget → Nat
  | .abs n => (clamp n 0 ((t.wpNum : Int) - 1)).toNat
  | .rel d => (clamp (t.currWp + d) 0 ((t.wpNum : Int) - 1)).toNat

/-- `dcvr[f][w]`, in range (43 R198). -/
def tableCell (t : Table) (f w : Nat) : Option Quad :=
  if f < t.dvfsStateNum ∧ w < t.wpNum then (t.dcvr[f]?).bind (fun row => row[w]?) else none

/-- `busy()` of SET_TABLE (45 R265). -/
def State.tableBusy (s : State) : Bool :=
  s.dptcActive || s.mbPending || s.rx != .idle || (!s.params.hasSdma && s.dvfsActive)

/-! ### The interrupt -/

/-- IRQ is enabled: the line is asserted and interrupts are not disabled (44 R230). -/
def State.irqEnabled (s : State) : Bool := irqLine s.dptccr && !s.irqOff

/-- Taking the interrupt and returning from it, one atomic step (44 R231, 60 R336, R337): the handler masks and
disables the block and posts the cause. Nothing is saved, no agent's position changes, and the handler returns in
the same step. A cause of 0 writes nothing (44 R232). A post overwrites a waiting one (R240). -/
def State.irqHandler (s : State) : State :=
  if dptcCause s.dptccr = 0 then s
  else { s with dptccr := dptccrWrite s.params s.dptccr (irqDptccr s.dptccr)
                mbCause := dptcCause s.dptccr
                mbPending := true }

end Sys2Proof.Machine
end

