-- ==== Sys2Proof/Machine/Procs.lean ====
section
/-! DEFINITION. The procedures SEQ and RX share, one atomic line at a time: register writes under reg_lock, set_wp,
update_thresholds, apply_voltage and log_insert (20_memory R80; 43 R192 to R199; 46 R300). -/

namespace Sys2Proof.Machine

/-- What running one line comes to. -/
inductive LineResult (α : Type) where
  /-- The line is done; `more` are the lines it calls before the rest. -/
  | done (s : State) (more : List α)
  /-- The agent has no step: it stays on the line (20_memory R83, R89; 41 R143; 42 R176). -/
  | wait
  /-- The agent's run is over. -/
  | ended (s : State)
  /-- The spec gives no meaning (00_scope R15). -/
  | fault (f : Fault)

/-- The lines of `apply_voltage(w)` (43 R199). -/
def voltageOps (p : Params) (w : Nat) : List Op :=
  .pmicGet .primary w :: if p.dualSwitcher then [.pmicGet .secondary w] else []

/-- A masked write under reg_lock, which waits while the lock is held (20_memory R80, R83). -/
def runModify (r : Csr) (mask value : Word) (s : State) : LineResult Op :=
  if s.regLock = .free then .done (s.modifyCsr r mask value) [] else .wait

/-- The first line of `set_wp` (43 R192): with SDMA `S.prev_wp` is written and `S.T.curr_wp` comes next; without,
`S.T.curr_wp` is written and the thresholds come next. Then the voltage and the log entry (R193 to R195).
`S.T.curr_wp` (44 R235) and the bounds of the clamp (log 30) are read in this step. -/
def runSetWp (g : WpTarget) (s : State) : LineResult Op :=
  match s.table with
  | none => .fault .noTable
  | some t =>
    if s.params.hasSdma then
      .done { s with prevWp := t.currWp }
        (.setCurrWp (clampWp t g) :: (voltageOps s.params (clampWp t g) ++ [.logInsert]))
    else
      .done { s with table := some { t with currWp := clampWp t g } }
        (.thresholds (some (clampWp t g)) :: (voltageOps s.params (clampWp t g) ++ [.logInsert]))

/-- `S.T.curr_wp <- w` (43 R192). -/
def runSetCurrWp (w : Nat) (s : State) : LineResult Op :=
  match s.table with
  | none => .fault .noTable
  | some t => .done { s with table := some { t with currWp := w } } []

/-- The first line of `update_thresholds` (43 R198): the cell is read, DCVR0 is written, and DCVR1 to DCVR3
follow. DESIGN CHOICE (log 30): `S.current_freq_index`, `S.T.curr_wp` where DPTC_ENABLE passes it (43 R190), and the
cell are read in this DCVR0 step, not in the step of the line before; the spec names no step for them. -/
def runThresholds (w : Option Nat) (s : State) : LineResult Op :=
  match s.table with
  | none => .fault .noTable
  | some t =>
    match tableCell t s.currentFreqIndex (w.getD t.currWp) with
    | none => .fault .thresholdsOutOfRange
    | some q => .done (s.writeCsr .dcvr0 q.v0) [.write .dcvr1 q.v1, .write .dcvr2 q.v2, .write .dcvr3 q.v3]

/-- `PMIC.get`: it waits until ENV_PMIC answers (43 R199, 20_memory R89). -/
def runPmicGet (ch : PmicChannel) (w : Nat) (s : State) : LineResult Op :=
  if s.env.pmicStalled then .wait else .done s [.pmicSet ch w (s.env.pmic ch)]

/-- `PMIC.set` with the merged configuration (43 R199). -/
def runPmicSet (ch : PmicChannel) (w : Nat) (c : Word) (s : State) : LineResult Op :=
  if s.env.pmicStalled then .wait
  else
    match s.table with
    | none => .fault .noTable
    | some t =>
      match t.wp[w]? with
      | none => .fault .wpOutOfRange
      | some vals => .done { s with env := s.env.setPmic ch (pmicMerge s.params.pmicMergeFn ch c vals) } []

/-- `log_insert()`, taken and released within the step; it waits while log_mutex is held (46 R300, R304). -/
def runLogInsert (s : State) : LineResult Op :=
  if s.logMutex = .free then
    match s.logEntry with
    | .error f => .fault f
    | .ok e => .done { s with log := logPush s.params.logCapacity s.log e } []
  else .wait

/-- Run one line of a shared procedure. -/
def Op.run (o : Op) (s : State) : LineResult Op :=
  match o with
  | .modify r mask value => runModify r mask value s
  | .write r v => .done (s.writeCsr r v) []
  | .rcEnable => runModify .dptccr 0xF0 (s.rcState.setWidth 32 <<< 4) s
  | .setWp g => runSetWp g s
  | .setCurrWp w => runSetCurrWp w s
  | .thresholds w => runThresholds w s
  | .pmicGet ch w => runPmicGet ch w s
  | .pmicSet ch w c => runPmicSet ch w c s
  | .logInsert => runLogInsert s

end Sys2Proof.Machine
end

