-- ==== Sys2Proof/Machine/Plans.lean ====
section
/-! DEFINITION. The pure lines between the atomic steps of the DVFS, low-power and DPTC commands: from what a
command has read, the lines it runs next (41 R125, R135, R140; 42 R170; 43 R190). -/

namespace Sys2Proof.Machine

/-- The lines of `adjust_dividers` and of what follows it: the divider write, or the raise or fault in its place
(41 R131, R134). -/
def adjustLines (armHz ahbHz ipHz : Nat) (next : List SeqLine) : List SeqLine :=
  match dividers armHz ahbHz ipHz with
  | .error f => [.stop f]
  | .ok (.error e) => [.raise e]
  | .ok (.ok v) => .op (.modify .div 0xF8 v) :: next

/-- The first lines of DVFS_INTSCALE (41 R125). -/
def intscaleLines (p : Params) (a : Args) : List SeqLine :=
  match validate p a p.capIntscale with
  | some e => [.raise e]
  | none => [.acquireDvfs, .read .pllsr .intPllsr]

/-- DVFS_INTSCALE after the PLL register: the frequency, and the check of R126 (41 R125). A fault of the clock model
comes in a step of its own (log 31). -/
def intscalePllLines (p : Params) (a : Args) (turbo : Bool) (r : Word) : List SeqLine :=
  match pllHz p turbo r with
  | .error f => [.stop f]
  | .ok pll => if pll < u32 a.a0 then [.raise .pllLessThanArmRequested] else [.read .div (.intDiv pll)]

/-- The BRMM write of DVFS_INTSCALE (41 R130). -/
def brmmLines (a : Args) (pll : Nat) (d : Word) : List SeqLine :=
  [.op (.modify .div 0x7 (BitVec.ofNat 32 (calcBrmm (u32 a.a0) pll (ahbHz pll d)))), .ret 0 0]

/-- DVFS_INTSCALE after DIV: the AHB test, and the divider adjustment where it fails (41 R125, R127). -/
def intscaleDivLines (a : Args) (pll : Nat) (d : Word) : List SeqLine :=
  if ahbMatches pll (u32 a.a1) d then brmmLines a pll d
  else adjustLines pll (u32 a.a1) (u32 a.a2) [.read .div (.intDivAgain pll)]

/-- The first lines of DVFS_PLLSCALE (41 R135). -/
def pllscaleLines (p : Params) (a : Args) : List SeqLine :=
  match validate p a p.capPllscale with
  | some e => [.raise e]
  | none => [.acquireDvfs, .read .pllsr .plsPllsr]

/-- The PLL write and the BRMM reset (41 R135, R139). -/
def pllWriteLines (turbo : Bool) (w d : Word) : List SeqLine :=
  .op (.write (pllCsr turbo) w) :: if divBrmm d ≠ 0 then [.op (.modify .div 0x7 0)] else []

/-- DVFS_PLLSCALE after its reads: the dividers before the PLL write if the target is above the current lock, else
after the BRMM reset (41 R135, R138). -/
def pllscaleDivLines (p : Params) (a : Args) (turbo : Bool) (r d : Word) : List SeqLine :=
  match pllScale p turbo (u32 a.a0) r with
  | .error f => [.stop f]
  | .ok (cur, w, new) =>
    if cur < u32 a.a0 then adjustLines new (u32 a.a1) (u32 a.a2) (pllWriteLines turbo w d ++ [.ret 0 0])
    else pllWriteLines turbo w d ++ adjustLines new (u32 a.a1) (u32 a.a2) [.ret 0 0]

/-- The first lines of DVFS_RELOCK (41 R140). -/
def relockLines (p : Params) (a : Args) : List SeqLine :=
  if !p.capRelock then [.raise .apiNotSupported]
  else if 1 < u32 a.a0 then [.raise .invalidMode]
  else [.acquireDvfs, .read .pllsr .rlkPllsr]

/-- The target of DVFS_RELOCK: 0 the normal PLL, 1 the turbo PLL (41 R140). -/
def relockTarget (a : Args) : Bool := bit a.a0 0

/-- DVFS_RELOCK after PLLSR: busy, or nothing to do, or the target PLL's register (41 R141, R146). -/
def relockPllsrLines (a : Args) (v : Word) : List SeqLine :=
  if pllsrBusy v then [.raise .dfspSwitchInProgress]
  else if pllsrCurPll v = relockTarget a then [.ret 0 0]
  else [.read (pllCsr (relockTarget a)) .rlkPll]

/-- DVFS_RELOCK after the target PLL's register: the combined write, the polls and the clear (41 R140, R142 to
R145). -/
def relockPllLines (p : Params) (a : Args) (r : Word) : List SeqLine :=
  match pllHz p (relockTarget a) r with
  | .error f => [.stop f]
  | .ok f =>
    if p.busMaxHz = 0 then [.stop .zeroDivisor]
    else if ahbPdfMax < relockPdf f p.busMaxHz then [.raise .ahbMaxDividerExceeded]
    else [.op (.modify .div 0x13F (relockValue a.a0 (relockPdf f p.busMaxHz))), .poll (.lock (relockTarget a)),
          .poll .swDone, .op (.write .pllsr 0x10), .ret 0 0]

/-- The lines of LPM_ENTER between the interrupt bracket's ends, by mode: 0 WAIT, 1 DOZE, 2 STOP, 3 DEEP_SLEEP
(42 R170, R172 to R175, R177). -/
def lpmModeLines (mode : Nat) : List SeqLine :=
  (if mode ≠ 0 then [.op (.modify .inten 0x1 0)] else []) ++
  (if mode = 3 then [.op (.modify .lpmcr 0x8 0x8), .op (.modify .lpmcr 0x10 0x10)] else []) ++
  (if mode = 2 ∨ mode = 3 then [.op (.modify .lpmcr 0x4 0), .op (.modify .lpmcr 0x3 0x3)] else []) ++
  (if mode = 1 then [.op (.modify .lpmcr 0x3 0x2)] else [])

/-- The lines of LPM_ENTER after the bracket is opened, `saved` being the interrupt state it restores
(42 R170, R177). -/
def lpmLines (mode : Nat) (saved : Bool) : List SeqLine :=
  lpmModeLines mode ++ [.wfi, .op (.modify .inten 0x1 0x1), .restoreIrq saved, .ret 0 0]

/-- LPM_ENTER after DBGSR: an attached probe skips the wait (42 R171). -/
def lpmProbeLines (a : Args) (g : Word) : List SeqLine :=
  if bit g 0 then [.ret 1 0] else [.lpmBracket (u32 a.a0)]

/-- The pure lines after a read: what the command runs next. -/
def Cont.resume (k : Cont) (p : Params) (a : Args) (v : Word) : List SeqLine :=
  match k with
  | .intPllsr => [.read (activePll v) (.intPll (pllsrCurPll v))]
  | .intPll turbo => intscalePllLines p a turbo v
  | .intDiv pll => intscaleDivLines a pll v
  | .intDivAgain pll => brmmLines a pll v
  | .plsPllsr => [.read (activePll v) (.plsPll (pllsrCurPll v))]
  | .plsPll turbo => [.read .div (.plsDiv turbo v)]
  | .plsDiv turbo r => pllscaleDivLines p a turbo r v
  | .rlkPllsr => relockPllsrLines a v
  | .rlkPll => relockPllLines p a v
  | .lpmProbe => lpmProbeLines a v

/-- A clock's frequency to the lines that use it; a fault of the clock model comes in a step of its own (log 31). -/
def clockLines (clock : Except Fault Nat) (use : Nat → SeqLine) : List SeqLine :=
  match clock with
  | .error f => [.stop f]
  | .ok hz => [use hz]

/-- The pure lines after the one-step read of the clock registers: GET_CPU_FREQ takes the BRMM point (41 R151),
DPTC_ENABLE takes CLOCK_MODEL's CPU frequency (43 R190). -/
def ClockUse.resume (k : ClockUse) (p : Params) (turbo : Bool) (r d : Word) : List SeqLine :=
  match k with
  | .report => clockLines (cpuPoint p turbo r d) (fun hz => .ret (loWord hz) (hiWord hz))
  | .freqIndex => clockLines (cpuHz p turbo r d) (fun hz => .assign (.freqIndexOf hz))

/-- The pure lines after SET_TABLE has read its text (45 R263). -/
def parsedLines (p : Params) (text : List Byte) (ok : Bool) : List SeqLine :=
  match parse p text ok with
  | .error e => [.raise e]
  | .ok t => [.swap t, .ret 0 0]

end Sys2Proof.Machine
end

