-- ==== Sys2Proof/Machine/Sequencer.lean ====
section
/-! DEFINITION. SEQ: one atomic line of the running command (10_state R21, 00_scope R14, 60 R320). -/

namespace Sys2Proof.Machine

/-- A line of a shared procedure as a line of SEQ. -/
def LineResult.ofOp (r : LineResult Op) : LineResult SeqLine :=
  match r with
  | .done s more => .done s (more.map SeqLine.op)
  | .wait => .wait
  | .ended s => .ended s
  | .fault f => .fault f

/-- An assignment to a state variable (10_state R45). FREQ_INDEX_OF out of range is a fault (43 R190). -/
def Assign.run (a : Assign) (s : State) : LineResult SeqLine :=
  match a with
  | .dptcActive b => .done { s with dptcActive := b } []
  | .dvfsActive b => .done { s with dvfsActive := b } []
  | .freqIndex n => .done { s with currentFreqIndex := n } []
  | .freqIndexOf hz =>
    match s.table with
    | none => .fault .noTable
    | some t =>
      if freqIndexBy s.params.freqIndexFn hz t < t.dvfsStateNum then
        .done { s with currentFreqIndex := freqIndexBy s.params.freqIndexFn hz t } []
      else .fault .freqIndexOutOfRange
  | .rcOr m => .done { s with rcState := s.rcState ||| m } []
  | .rcAndNot m => .done { s with rcState := s.rcState &&& ~~~m } []

/-- `acquire dvfs_lock`: the lock is SEQ's and interrupts are disabled (41 R120). -/
def runAcquire (s : State) : LineResult SeqLine :=
  if s.dvfsLock = .free then .done { s with dvfsLock := .held .seq, irqOff := true } [] else .wait

/-- The bit a poll samples (41 R143, R144). -/
def PollBit.sample (b : PollBit) (pllsr : Word) : Bool :=
  match b with
  | .lock t => pllsrLock pllsr t
  | .swDone => pllsrSwDone pllsr

/-- One sample of a poll, under reg_lock: it stays on the line until the bit reads 1, without bound
(00_scope R17, 41 R143). -/
def runPoll (b : PollBit) (s : State) : LineResult SeqLine :=
  if s.regLock = .free ∧ b.sample s.pllsr = true then .done s [] else .wait

/-- The one-step read of PLLSR, the active PLL's register and DIV, under reg_lock (41 R151, 43 R190). -/
def runReadClock (k : ClockUse) (s : State) : LineResult SeqLine :=
  if s.regLock = .free then .done s (k.resume s.params (pllsrCurPll s.pllsr) (s.readCsr (activePll s.pllsr)) s.div)
  else .wait

/-- The busy check and the swap, one step (45 R263, R265, R266). -/
def runSwap (t : Table) (s : State) : LineResult SeqLine :=
  if s.tableBusy then .ended (s.raiseErr .notWhileActive)
  else .done { s with table := some t, prevWp := 0 } []

/-- How many records LOG_READ moves (46 R302). -/
def State.drainCount (s : State) (wanted : Nat) : Nat :=
  min wanted (min (logCount s.params.logCapacity s.log) (Memory.size / 16))

/-- The drain of LOG_READ, one step holding log_mutex (46 R302, R304). -/
def runDrain (wanted : Nat) (s : State) : LineResult SeqLine :=
  if s.logMutex = .free then
    .done { s with data := s.data.writeBytes 0
                     ((logOldest s.params.logCapacity s.log (s.drainCount wanted)).map logRecord).flatten
                   log := logDrop s.params.logCapacity s.log (s.drainCount wanted) }
      [.ret (BitVec.ofNat 32 (s.drainCount wanted)) 0]
  else .wait

/-- `return S.T.curr_wp` (43 R196). DESIGN CHOICE (log 30): `S.T.curr_wp` is read in this completion step, so a working
point that RX or ENV_SDMA sets after the last line of set_wp is the one returned; the spec names no step for it. -/
def runRetCurrWp (s : State) : LineResult SeqLine :=
  match s.table with
  | none => .fault .noTable
  | some t => .ended (s.finish (BitVec.ofNat 32 t.currWp) 0)

/-- Run one line of SEQ, with the operands of the running command. -/
def SeqLine.run (l : SeqLine) (a : Args) (s : State) : LineResult SeqLine :=
  match l with
  | .start => .wait
  | .op o => (o.run s).ofOp
  | .acquireDvfs => runAcquire s
  | .read r k => .done s (k.resume s.params a (s.readCsr r))
  | .readClock k => runReadClock k s
  | .poll b => runPoll b s
  | .assign x => x.run s
  | .lpmBracket mode => .done { s with irqOff := true } (lpmLines mode s.irqOff)
  | .wfi => .wait
  | .restoreIrq saved => .done { s with irqOff := saved } []
  | .readText len => .done s (parsedLines s.params (s.data.readBytes 0 len) s.env.allocOk)
  | .swap t => runSwap t s
  | .memWrite bytes => .done { s with data := s.data.writeBytes 0 bytes } []
  | .drainLog n => runDrain n s
  | .setSuspended b => .ended ({ s with suspended := b }.finish 0 0)
  | .ret v0 v1 => .ended (s.finish v0 v1)
  | .retCurrWp => runRetCurrWp s
  | .raise e => .ended (s.raiseErr e)
  | .stop f => .fault f

/-- SEQ takes the next line of a job: the line's effect, and the position after it (10_state R21). Where the
line waits nothing changes. -/
def State.takeLine (s : State) (job : Job) : Host.Outcome State Fault Refusal :=
  match job.todo with
  | [] => .next s
  | l :: rest =>
    match l.run job.args s with
    | .done s' more => .next { s' with seq := .run { job with todo := more ++ rest } }
    | .wait => .next s
    | .ended s' => .next s'
    | .fault f => .fault f

/-- One atomic step of a command whose first lines are `plan`: at its start the checks and the first `▸` line (or
the completion step) in one step, later the next line. SEQ has no step while it is idle (10_state R21). -/
def runCommand (plan : State → Args → List SeqLine) (s : State) : Host.Outcome State Fault Refusal :=
  match s.seq with
  | .idle => .next s
  | .run job =>
    match job.todo with
    | .start :: _ => s.takeLine { job with todo := plan s job.args }
    | _ => s.takeLine job

/-- A reserved command word: Unsupported(UnknownCommand), and nothing else changes (30_encoding R91, R98). -/
def runUnknown (s : State) : Host.Outcome State Fault Refusal := .next (s.raiseErr .unknownCommand)

end Sys2Proof.Machine
end

