-- ==== Sys2Proof/Machine/Control.lean ====
section
/-! DEFINITION. The log read and the suspend flag (46_control_surface). -/

namespace Sys2Proof.Machine

/-- The lines of LOG_READ (46 R302). -/
def logReadPlan (s : State) (a : Args) : List SeqLine :=
  if s.suspended then [.raise .suspendedError] else [.drainLog (u32 a.a0)]

/-- LOG_READ (46 R302). -/
def execLogRead (s : State) : Host.Outcome State Fault Refusal := runCommand logReadPlan s

/-- The line of SYS_SUSPEND (46 R292). -/
def sysSuspendPlan (_ : State) (_ : Args) : List SeqLine := [.setSuspended true]

/-- SYS_SUSPEND (46 R292). -/
def execSysSuspend (s : State) : Host.Outcome State Fault Refusal := runCommand sysSuspendPlan s

/-- The line of SYS_RESUME (46 R293). -/
def sysResumePlan (_ : State) (_ : Args) : List SeqLine := [.setSuspended false]

/-- SYS_RESUME (46 R293). -/
def execSysResume (s : State) : Host.Outcome State Fault Refusal := runCommand sysResumePlan s

end Sys2Proof.Machine
end

