-- ==== Sys2Proof/Machine/Dptc.lean ====
section
/-! DEFINITION. The DPTC commands (43_dptc_engine). -/

namespace Sys2Proof.Machine

/-- The lines of DPTC_ENABLE after its checks; `w` is the working point whose voltage is applied. The index line
that FREQ_INDEX_OF needs is called by the clock read (43 R190). -/
def dptcStartLines (p : Params) (w : Nat) : List SeqLine :=
  (voltageOps p w).map SeqLine.op ++
  [.readClock .freqIndex, .op (.thresholds none), .op .rcEnable, .op .logInsert, .assign (.dptcActive true),
   .op (.modify .dptccr 0x1 0x1), .op (.modify .dptccr 0x2 0), .ret 0 0]

/-- The lines of DPTC_ENABLE (43 R190). -/
def dptcEnablePlan (s : State) (_ : Args) : List SeqLine :=
  if s.suspended then [.raise .suspendedError]
  else
    match s.table with
    | none => [.raise .noTable]
    | some t => if s.dptcActive then [.raise .alreadyActive] else dptcStartLines s.params t.currWp

/-- DPTC_ENABLE (43 R190). -/
def execDptcEnable (s : State) : Host.Outcome State Fault Refusal := runCommand dptcEnablePlan s

/-- The lines of DPTC_DISABLE (43 R191). -/
def dptcDisablePlan (s : State) (_ : Args) : List SeqLine :=
  if s.suspended then [.raise .suspendedError]
  else if !s.dptcActive then [.raise .alreadyInactive]
  else [.op (.modify .dptccr 0x1 0), .op (.modify .dptccr 0x2 0x2), .op (.setWp (.abs 0)),
        .assign (.dptcActive false), .ret 0 0]

/-- DPTC_DISABLE (43 R191). -/
def execDptcDisable (s : State) : Host.Outcome State Fault Refusal := runCommand dptcDisablePlan s

/-- The lines of DPTC_ENABLE_RC (43 R200). -/
def dptcEnableRcPlan (s : State) (a : Args) : List SeqLine :=
  if s.suspended then [.raise .suspendedError]
  else if 0xF < u32 a.a0 then [.raise .invalidMask]
  else if s.dptcActive then [.raise .invalidState]
  else [.assign (.rcOr (a.a0.setWidth 4)), .ret 0 0]

/-- DPTC_ENABLE_RC (43 R200). -/
def execDptcEnableRc (s : State) : Host.Outcome State Fault Refusal := runCommand dptcEnableRcPlan s

/-- The lines of DPTC_DISABLE_RC (43 R201). -/
def dptcDisableRcPlan (s : State) (a : Args) : List SeqLine :=
  if s.suspended then [.raise .suspendedError]
  else if 0xF < u32 a.a0 then [.raise .invalidMask]
  else if s.dptcActive then [.raise .invalidState]
  else [.assign (.rcAndNot (a.a0.setWidth 4)), .ret 0 0]

/-- DPTC_DISABLE_RC (43 R201). -/
def execDptcDisableRc (s : State) : Host.Outcome State Fault Refusal := runCommand dptcDisableRcPlan s

/-- The line of DPTC_GET_STATE (43 R202). -/
def dptcGetStatePlan (s : State) (_ : Args) : List SeqLine := [.ret (bitWord s.dptcActive) 0]

/-- DPTC_GET_STATE (43 R202). -/
def execDptcGetState (s : State) : Host.Outcome State Fault Refusal := runCommand dptcGetStatePlan s

/-- The lines of DPTC_SET_WP (43 R196). -/
def dptcSetWpPlan (s : State) (a : Args) : List SeqLine :=
  if s.suspended then [.raise .suspendedError]
  else if !s.tableValid then [.raise .noTable]
  else if s.dptcActive then [.raise .notWhileActive]
  else [.op (.setWp (.abs (s32 a.a0))), .retCurrWp]

/-- DPTC_SET_WP (43 R196). -/
def execDptcSetWp (s : State) : Host.Outcome State Fault Refusal := runCommand dptcSetWpPlan s

/-- The lines of SET_FREQ_INDEX (43 R197). -/
def setFreqIndexPlan (s : State) (a : Args) : List SeqLine :=
  if s.suspended then [.raise .suspendedError]
  else
    match s.table with
    | none => [.raise .noTable]
    | some t =>
      if t.dvfsStateNum ≤ u32 a.a0 then [.raise .invalidIndex]
      else if s.dptcActive then [.raise .notWhileActive]
      else if s.dvfsActive && !s.params.dvfsPredictive then [.raise .notWhileActive]
      else [.assign (.freqIndex (u32 a.a0)), .ret 0 0]

/-- SET_FREQ_INDEX (43 R197). -/
def execSetFreqIndex (s : State) : Host.Outcome State Fault Refusal := runCommand setFreqIndexPlan s

end Sys2Proof.Machine
end

