-- ==== Sys2Proof/Machine/Dvfs.lean ====
section
/-! DEFINITION. The DVFS commands (41_dvfs). A meaning is one atomic step of its command: the checks and the first
line from `start`, later the next line (00_scope R14, 60 R320). -/

namespace Sys2Proof.Machine

/-- The first lines of DVFS_REQ_FREQ: the variant's strategy (41 R124). -/
def reqFreqPlan (s : State) (a : Args) : List SeqLine :=
  if s.params.capIntscale then intscaleLines s.params a
  else if s.params.capPllscale then pllscaleLines s.params a
  else [.raise .apiNotSupported]

/-- DVFS_REQ_FREQ (41 R124). -/
def execDvfsReqFreq (s : State) : Host.Outcome State Fault Refusal := runCommand reqFreqPlan s

/-- The first lines of DVFS_INTSCALE (41 R125). -/
def intscalePlan (s : State) (a : Args) : List SeqLine := intscaleLines s.params a

/-- DVFS_INTSCALE (41 R125). -/
def execDvfsIntscale (s : State) : Host.Outcome State Fault Refusal := runCommand intscalePlan s

/-- The first lines of DVFS_PLLSCALE (41 R135). -/
def pllscalePlan (s : State) (a : Args) : List SeqLine := pllscaleLines s.params a

/-- DVFS_PLLSCALE (41 R135). -/
def execDvfsPllscale (s : State) : Host.Outcome State Fault Refusal := runCommand pllscalePlan s

/-- The first lines of DVFS_RELOCK (41 R140). -/
def relockPlan (s : State) (a : Args) : List SeqLine := relockLines s.params a

/-- DVFS_RELOCK (41 R140). -/
def execDvfsRelock (s : State) : Host.Outcome State Fault Refusal := runCommand relockPlan s

/-- The lines of DVFS_ENABLE (41 R148). -/
def dvfsEnablePlan (s : State) (_ : Args) : List SeqLine :=
  if s.suspended then [.raise .suspendedError]
  else if !s.params.capDvfsHw then [.raise .apiNotSupported]
  else if s.dvfsActive then [.raise .alreadyActive]
  else [.op (.modify .dvfscr 0x1 0x1), .assign (.dvfsActive true), .ret 0 0]

/-- DVFS_ENABLE (41 R148). -/
def execDvfsEnable (s : State) : Host.Outcome State Fault Refusal := runCommand dvfsEnablePlan s

/-- The lines of DVFS_DISABLE (41 R149). -/
def dvfsDisablePlan (s : State) (_ : Args) : List SeqLine :=
  if s.suspended then [.raise .suspendedError]
  else if !s.params.capDvfsHw then [.raise .apiNotSupported]
  else if !s.dvfsActive then [.raise .alreadyInactive]
  else [.op (.modify .dvfscr 0x1 0), .assign (.dvfsActive false), .ret 0 0]

/-- DVFS_DISABLE (41 R149). -/
def execDvfsDisable (s : State) : Host.Outcome State Fault Refusal := runCommand dvfsDisablePlan s

/-- The lines of DVFS_GET_STATE (41 R150). -/
def dvfsGetStatePlan (s : State) (_ : Args) : List SeqLine :=
  if !s.params.capDvfsHw then [.raise .apiNotSupported] else [.ret (bitWord s.dvfsActive) 0]

/-- DVFS_GET_STATE (41 R150). -/
def execDvfsGetState (s : State) : Host.Outcome State Fault Refusal := runCommand dvfsGetStatePlan s

/-- The lines of GET_CPU_FREQ (41 R151). -/
def getCpuFreqPlan (_ : State) (_ : Args) : List SeqLine := [.readClock .report]

/-- GET_CPU_FREQ (41 R151). -/
def execGetCpuFreq (s : State) : Host.Outcome State Fault Refusal := runCommand getCpuFreqPlan s

end Sys2Proof.Machine
end

