-- ==== Sys2Proof/Machine/LowPower.lean ====
section
/-! DEFINITION. The low-power-mode command (42_low_power). -/

namespace Sys2Proof.Machine

/-- The first lines of LPM_ENTER: the mode check, then the probe read (42 R170, R180). -/
def lpmEnterPlan (_ : State) (a : Args) : List SeqLine :=
  if 3 < u32 a.a0 then [.raise .invalidMode] else [.read .dbgsr .lpmProbe]

/-- LPM_ENTER (42 R170). -/
def execLpmEnter (s : State) : Host.Outcome State Fault Refusal := runCommand lpmEnterPlan s

end Sys2Proof.Machine
end

