-- ==== Sys2Proof/Machine/TableIo.lean ====
section
/-! DEFINITION. The table commands (45_table_io). -/

namespace Sys2Proof.Machine

/-- TABLE_TEXT_MAX (00_scope R8). -/
def tableTextMax : Nat := 8192

/-- The first lines of SET_TABLE (45 R263, R264). -/
def setTablePlan (s : State) (a : Args) : List SeqLine :=
  if s.suspended then [.raise .suspendedError]
  else if tableTextMax < u32 a.a0 then [.raise .inputTooLarge]
  else [.readText (u32 a.a0)]

/-- SET_TABLE (45 R263). -/
def execSetTable (s : State) : Host.Outcome State Fault Refusal := runCommand setTablePlan s

/-- The lines that write a text out (45 R269). -/
def writeTextLines (text : List Byte) : List SeqLine :=
  if Memory.size < text.length then [.raise .outputTooLarge]
  else [.memWrite text, .ret (BitVec.ofNat 32 text.length) 0]

/-- The lines of GET_TABLE (45 R269). -/
def getTablePlan (s : State) (_ : Args) : List SeqLine :=
  match s.table with
  | none => [.raise .noTable]
  | some t => writeTextLines (serialize s.params t)

/-- GET_TABLE (45 R269). -/
def execGetTable (s : State) : Host.Outcome State Fault Refusal := runCommand getTablePlan s

end Sys2Proof.Machine
end

