-- ==== Sys2Proof/Machine/Dispatch.lean ====
section
/-! DEFINITION. The meaning of each command: one atomic step of it (00_scope R14, 30_encoding R92). -/

namespace Sys2Proof.Machine

-- One atomic step of the command SEQ is running, by command.
def exec (i : Instr) (s : State) : Host.Outcome State Fault Refusal :=
  match i with
  | .dvfsReqFreq => Sys2Proof.Machine.execDvfsReqFreq s
  | .dvfsIntscale => Sys2Proof.Machine.execDvfsIntscale s
  | .dvfsPllscale => Sys2Proof.Machine.execDvfsPllscale s
  | .dvfsRelock => Sys2Proof.Machine.execDvfsRelock s
  | .dvfsEnable => Sys2Proof.Machine.execDvfsEnable s
  | .dvfsDisable => Sys2Proof.Machine.execDvfsDisable s
  | .dvfsGetState => Sys2Proof.Machine.execDvfsGetState s
  | .getCpuFreq => Sys2Proof.Machine.execGetCpuFreq s
  | .lpmEnter => Sys2Proof.Machine.execLpmEnter s
  | .dptcEnable => Sys2Proof.Machine.execDptcEnable s
  | .dptcDisable => Sys2Proof.Machine.execDptcDisable s
  | .dptcEnableRc => Sys2Proof.Machine.execDptcEnableRc s
  | .dptcDisableRc => Sys2Proof.Machine.execDptcDisableRc s
  | .dptcGetState => Sys2Proof.Machine.execDptcGetState s
  | .dptcSetWp => Sys2Proof.Machine.execDptcSetWp s
  | .setFreqIndex => Sys2Proof.Machine.execSetFreqIndex s
  | .setTable => Sys2Proof.Machine.execSetTable s
  | .getTable => Sys2Proof.Machine.execGetTable s
  | .logRead => Sys2Proof.Machine.execLogRead s
  | .sysSuspend => Sys2Proof.Machine.execSysSuspend s
  | .sysResume => Sys2Proof.Machine.execSysResume s

end Sys2Proof.Machine
end

