-- ==== Sys2Proof/Machine/Agents.lean ====
section
/-! DEFINITION. The agents' steps: SEQ fetching its command (30_encoding R91), RX (44 R234 to R237), IRQ (44 R230,
60 R335), the HOST on the bus (20_memory R70 to R78) and the environment (10_state R27, R33, R35; 42 R176). -/

namespace Sys2Proof.Machine

/-- An agent that has no enabled step: nothing changes (00_scope R15; log 6). -/
def noStep (s : State) : Host.Outcome State Fault Refusal := .next s

/-! ### SEQ -/

/-- SEQ: one atomic step of the command its word decodes to, or the refusal of a reserved word
(30_encoding R91). -/
def stepSeq (s : State) : Host.Outcome State Fault Refusal :=
  match s.seq with
  | .idle => noStep s
  | .run job =>
    match decode job.word with
    | .ok i => exec i s
    | .error _ => runUnknown s

/-! ### RX -/

/-- `rearm()`'s two enables and its end, where DPTC is still active (44 R237). -/
def rearmLines (active : Bool) : List RxLine :=
  if active then [.op (.modify .dptccr 0x1 0x1), .op (.modify .dptccr 0x2 0), .idle] else [.idle]

/-- The lines of a reaction to a cause: without SDMA the working point moves by the cause (44 R235), with SDMA the
selected point is applied again and VOLT_VALID is set (R236). -/
def reactionLines (p : Params) (cause : BitVec 2) : List RxLine :=
  if p.hasSdma then [.op (.setWp (.rel 0)), .op (.modify .dptccr 0x100 0x100), .rearm]
  else if cause = 1 then [.op (.setWp (.rel 1)), .rearm]
  else if cause = 2 ∨ cause = 3 then [.op (.setWp (.rel (-1))), .rearm]
  else [.rearm]

/-- Run one line of RX. -/
def RxLine.run (l : RxLine) (s : State) : LineResult RxLine :=
  match l with
  | .op o =>
    match o.run s with
    | .done s' more => .done s' (more.map RxLine.op)
    | .wait => .wait
    | .ended s' => .ended s'
    | .fault f => .fault f
  | .rearm => .done s (rearmLines s.dptcActive)
  | .idle => .ended { s with rx := .idle }

/-- RX: it takes the message when idle, or the next line of its reaction; no step while interrupts are disabled
(44 R234). -/
def stepRx (s : State) : Host.Outcome State Fault Refusal :=
  if s.irqOff then noStep s
  else
    match s.rx with
    | .idle =>
      if s.mbPending then .next { s with mbPending := false, rx := .run (reactionLines s.params s.mbCause) }
      else noStep s
    | .run [] => noStep s
    | .run (l :: rest) =>
      match l.run s with
      | .done s' more => .next { s' with rx := .run (more ++ rest) }
      | .wait => noStep s
      | .ended s' => .next s'
      | .fault f => .fault f

/-! ### The HOST -/

/-- The value a read of a register offset returns; reserved offsets read 0 (10_state R38). -/
def State.readRegister (s : State) (off : Nat) : Word :=
  match csrAt off, portAt off with
  | some r, _ => s.readCsr r
  | none, some r => s.readPort r
  | none, none => 0

/-- A write of a register offset; reserved offsets ignore it (10_state R38). -/
def State.writeRegister (s : State) (off : Nat) (v : Word) : State :=
  match csrAt off, portAt off with
  | some r, _ => s.writeCsr r v
  | none, some r => s.writePort r v
  | none, none => s

/-- The offset of an address, if it is at or above PCS_BASE (20_memory R77). -/
def Params.offsetOf (p : Params) (addr : Nat) : Option Nat := if p.pcsBase ≤ addr then some (addr - p.pcsBase) else none

/-- The HOST is stuck from now on: it has no next step, and no other agent is held up (00_scope R15, 20_memory R72,
60 R324; log 15). -/
def stuckHost (s : State) : Host.Outcome State Fault Refusal :=
  .next { s with env := { s.env with hostStuck := true } }

/-- A HOST read: a register word, or little-endian bytes of the DATA window (20_memory R71, R73, R78). -/
def hostRead (s : State) (off size : Nat) : Host.Outcome State Fault Refusal :=
  if accessAdmitted off size then
    if isRegisterOffset off then .next { s with env := { s.env with hostData := s.readRegister off } }
    else .next { s with env := { s.env with
      hostData := BitVec.ofNat 32 (bytesToNat (s.data.readBytes (off - 0x1000) size)) } }
  else stuckHost s

/-- A HOST write: a register word, or the low bytes of the value into the DATA window (20_memory R71, R73, R78). -/
def hostWrite (s : State) (off size : Nat) (v : Word) : Host.Outcome State Fault Refusal :=
  if accessAdmitted off size then
    if isRegisterOffset off then .next (s.writeRegister off v)
    else .next { s with data := s.data.writeBytes (off - 0x1000) ((wordBytes v).take size) }
  else stuckHost s

/-- A bus access of a HOST that is not stuck. -/
def hostAccess (a : HostAccess) (s : State) : Host.Outcome State Fault Refusal :=
  match a with
  | .read addr size =>
    match Params.offsetOf s.params addr with
    | some off => hostRead s off size
    | none => stuckHost s
  | .write addr size v =>
    match Params.offsetOf s.params addr with
    | some off => hostWrite s off size v
    | none => stuckHost s

/-- A turn of the HOST: an access the bus does not admit leaves it stuck (20_memory R72), and a stuck HOST has no
step (00_scope R15). -/
def stepHost (a : HostAccess) (s : State) : Host.Outcome State Fault Refusal :=
  if s.env.hostStuck then noStep s else hostAccess a s

/-! ### The environment -/

/-- ENV_PLL locks the target of the switch in progress (10_state R27 step 1). -/
def envPllLock (s : State) : State :=
  if pllsrBusy s.pllsr && !pllsrLock s.pllsr s.pllTarget then
    { s with pllsr := s.pllsr ||| (if s.pllTarget then 0x2 else 0x1) }
  else s

/-- ENV_PLL completes the switch: CUR_PLL is the target, DFSP_BUSY clears and SW_DONE sets, in one step, not before
the target is locked (10_state R27 step 2). -/
def envPllDone (s : State) : State :=
  if pllsrBusy s.pllsr && pllsrLock s.pllsr s.pllTarget then
    { s with pllsr := (s.pllsr &&& ~~~0xC) ||| (if s.pllTarget then 0x18 else 0x10) }
  else s

/-- The CAUSE field of a cause (10_state R32). -/
def Cause.bits : Cause → BitVec 2
  | .decrease => 1
  | .increase => 2
  | .emergency => 3

/-- DPTCCR with CAUSE set. -/
def withCause (w : Word) (c : Cause) : Word := merge w 0xC (c.bits.setWidth 32 <<< 2)

/-- ENV_DPTC raises a cause while the block is enabled and shows none (10_state R33). -/
def envDptc (c : Cause) (s : State) : State :=
  if dptcEn s.dptccr && dptcCause s.dptccr == 0 && !s.params.hasSdma then
    { s with dptccr := withCause s.dptccr c }
  else s

/-- ENV_SDMA is enabled (10_state R35). -/
def sdmaEnabled (s : State) : Bool :=
  s.params.hasSdma && dptcEn s.dptccr && dptcVoltValid s.dptccr && dptcCause s.dptccr == 0

/-- ENV_SDMA selects working point `w`: it writes DCVR0..3 and `S.T.curr_wp`, clears VOLT_VALID and raises a cause,
as one step (10_state R35). -/
def envSdma (w : Nat) (c : Cause) (s : State) : State :=
  match s.table with
  | none => s
  | some t =>
    match tableCell t s.currentFreqIndex w with
    | none => s
    | some q =>
      if sdmaEnabled s then
        { s with dcvr := q
                 table := some { t with currWp := w }
                 dptccr := withCause (s.dptccr &&& ~~~0x100) c }
      else s

/-- ENV_WAKE ends the wait SEQ is in (42 R176). -/
def envWake (s : State) : State :=
  match s.seq with
  | .run job =>
    match job.todo with
    | .wfi :: rest => { s with seq := .run { job with todo := rest } }
    | _ => s
  | .idle => s

/-! ### Reset -/

/-- A reset in the world as it stands: the draws and the environment go on (70 R350). -/
def State.reboot (s : State) : State := State.resetIn s.params s.env

/-! ### Who steps -/

/-- The agent that steps where no choice is given: IRQ if it is enabled, else SEQ if it runs a command, else RX.
DESIGN CHOICE: the spec fixes only IRQ's priority (60 R335; log 6). -/
def stepDefault (s : State) : Host.Outcome State Fault Refusal :=
  if s.irqEnabled then .next s.irqHandler
  else if s.seq ≠ .idle then stepSeq s
  else stepRx s

/-- One input. An enabled IRQ is taken before the step of SEQ or RX that comes next, which stays to come (60 R335;
log 28). -/
def stepInput (i : Input) (rest : List Input) (s : State) : Host.Outcome State Fault Refusal :=
  let s' : State := { s with env := { s.env with inputs := rest } }
  match i with
  | .seq => if s.irqEnabled then .next s.irqHandler else stepSeq s'
  | .rx => if s.irqEnabled then .next s.irqHandler else stepRx s'
  | .irq => if s.irqEnabled then .next s'.irqHandler else noStep s'
  | .host a => stepHost a s'
  | .pllLock => .next (envPllLock s')
  | .pllDone => .next (envPllDone s')
  | .dptcCause c => .next (envDptc c s')
  | .sdma w c => .next (envSdma w c s')
  | .wake => .next (envWake s')
  | .probe b => .next { s' with env := { s'.env with probe := b } }
  | .pmicStall b => .next { s' with env := { s'.env with pmicStalled := b } }
  | .pmicConfig ch v => .next { s' with env := s'.env.setPmic ch v }
  | .alloc b => .next { s' with env := { s'.env with allocOk := b } }
  | .tick n => .next { s' with env := { s'.env with now := s'.env.now + n } }
  | .reset => .next s'.reboot

/-- One atomic step of the PCS and the world around it. -/
def stepAny (s : State) : Host.Outcome State Fault Refusal :=
  match s.env.inputs with
  | [] => stepDefault s
  | i :: rest => stepInput i rest s

/-- The state in which SEQ has just been given a command word, as by a HOST write of CMD while not BUSY (10_state
R39): BUSY is set, the results are cleared and the copies of ARG0 to ARG3 are taken; SEQ's step comes next, and an
asserted interrupt is masked so that it does not come before (60 R335; log 7). -/
def State.startWord (s : State) (w : Word) : State :=
  { s with psr := s.psr ||| 0x1, result := 0, rval0 := 0, rval1 := 0,
           seq := .run { word := w, args := s.args, todo := [.start] }
           dptccr := if s.irqEnabled then s.dptccr ||| 0x2 else s.dptccr
           env := { s.env with inputs := .seq :: s.env.inputs } }

end Sys2Proof.Machine
end

