-- ==== Sys2Proof/Machine/Step.lean ====
section
/-! DEFINITION. One step of the machine, and the state in which the next step runs a given command word. -/

namespace Sys2Proof.Machine

/-- One atomic step: the agent whose turn it is takes it (00_scope R14, 20_memory R82, R84). -/
def step (s : State) : Host.Outcome State Fault Refusal := stepAny s

/-- `s` with a command word given to SEQ, so that the very next step is that command's first (10_state R39; log 7).
A command word is 32 bits (30_encoding R99). -/
def State.withFetchWord (s : State) (_nbits w : Nat) : State := s.startWord (BitVec.ofNat 32 w)

end Sys2Proof.Machine
end

