-- ==== Sys2Proof/Safety.lean ====
section
/-! DEFINITION. Runs and invariants, in the terms the statements use: a command run line by line with no other
agent in between, a reaction run likewise, and what holds of every state of a run (00_scope R14, R15; 10_state R38,
R47 to R49). -/

namespace Sys2Proof

open Machine

/-! ### Runs -/

/-- `n` atomic steps of a command, one after the other: what SEQ does with `n` turns if nothing else moves
(00_scope R14). The first fault or refusal ends it. -/
def execTimes (i : Instr) : Nat → State → Host.Outcome State Fault Refusal
  | 0, s => .next s
  | n + 1, s =>
    match exec i s with
    | .next s' => execTimes i n s'
    | .fault f => .fault f
    | .refused r => .refused r

/-- `n` atomic steps of RX, one after the other (44 R234). -/
def rxTimes : Nat → State → Host.Outcome State Fault Refusal
  | 0, s => .next s
  | n + 1, s =>
    match stepRx s with
    | .next s' => rxTimes n s'
    | .fault f => .fault f
    | .refused r => .refused r

/-- SEQ has been given a command and has not taken its first step (10_state R39); `a` are its operands. -/
def AtStart (s : State) (a : Args) : Prop := ∃ w, s.seq = .run { word := w, args := a, todo := [.start] }

/-- SEQ runs a command with operands `a` and has the lines `todo` still to run (10_state R21). -/
def AtLines (s : State) (a : Args) (todo : List SeqLine) : Prop :=
  ∃ w, s.seq = .run { word := w, args := a, todo := todo }

/-- No lock is held and interrupts are enabled: what SEQ finds between commands (10_state R51). -/
def Unlocked (s : State) : Prop :=
  s.regLock = .free ∧ s.dvfsLock = .free ∧ s.logMutex = .free ∧ s.irqOff = false

/-- `s` with `ins` as the steps to come (log 6). -/
def withInputs (s : State) (ins : List Input) : State := { s with env := { s.env with inputs := ins } }

/-- The machine does not stop within `n` steps. -/
def SafeFor (n : Nat) (s : State) : Prop := ∃ s', core.run n s = .next s'

/-- A frequency request that passes every check of 41 R123 but the capability. -/
def ValidRequest (s : State) (a : Args) : Prop :=
  a.a1.toNat = s.params.busMaxHz ∧ a.a2.toNat = s.params.perMaxHz ∧ s.params.armMinHz ≤ a.a0.toNat ∧
  a.a0.toNat ≤ s.params.armMaxHz

/-! ### Ends of a command -/

/-- `s` after a command that has returned `(v0, v1)`: BUSY clear, SEQ idle, RESULT Ok (60 R320, 10_state R42). -/
def ended (s : State) (v0 v1 : Word) : State :=
  { s with psr := s.psr &&& ~~~0x1, seq := .idle, result := 0, rval0 := v0, rval1 := v1 }

/-- `s` after a command that has raised the error whose RESULT is `r`: BUSY clear, SEQ idle, RVAL0 and RVAL1 as they
were (60 R320, 10_state R42). -/
def raised (s : State) (r : Word) : State := { s with psr := s.psr &&& ~~~0x1, seq := .idle, result := r }

/-! ### Whole procedures -/

/-- The regulator after `apply_voltage` of a working point with raw values `vals` (43 R199). -/
def voltageDone (p : Params) (e : Env) (vals : List Word) : Env :=
  let e' := e.setPmic .primary (pmicMerge p.pmicMergeFn .primary e.pmicPrimary vals)
  if p.dualSwitcher then e'.setPmic .secondary (pmicMerge p.pmicMergeFn .secondary e.pmicSecondary vals) else e'

/-- How many atomic steps `apply_voltage` takes: a get and a set per channel (43 R199). -/
def voltageSteps (p : Params) : Nat := if p.dualSwitcher then 4 else 2

/-- How many atomic steps `set_wp` takes: `prev_wp` and `curr_wp` with SDMA, `curr_wp` and four thresholds without,
then the voltage and the log entry (43 R192). -/
def setWpSteps (p : Params) : Nat := (if p.hasSdma then 2 else 5) + voltageSteps p + 1

/-- The log entry of a working point with raw values `vals` at this moment (46 R301). -/
def entryOf (s : State) (w : Nat) (vals : List Word) : LogEntry :=
  { timestamp := BitVec.ofNat 32 s.env.now, workingPoint := BitVec.ofNat 32 w,
    voltage := logVoltage s.params.logVoltageFn vals, frequencyIndex := BitVec.ofNat 32 s.currentFreqIndex }

/-- The state after a whole `set_wp` that sets working point `w` of table `t`, whose thresholds are `q` and whose
raw values are `vals` (43 R192 to R195). -/
def setWpDone (s : State) (t : Table) (w : Nat) (q : Quad) (vals : List Word) : State :=
  { s with table := some { t with currWp := w }
           prevWp := if s.params.hasSdma then t.currWp else s.prevWp
           dcvr := if s.params.hasSdma then s.dcvr else q
           env := voltageDone s.params s.env vals
           log := logPush s.params.logCapacity s.log (entryOf s w vals) }

/-- What `set_wp` to `w` needs to run through: the table has the point, and without SDMA the cell of the current
frequency state; the locks are free and the regulator answers. -/
def SetWpReady (s : State) (t : Table) (w : Nat) (q : Quad) (vals : List Word) : Prop :=
  s.table = some t ∧ t.wp[w]? = some vals ∧
  (s.params.hasSdma = false → tableCell t s.currentFreqIndex w = some q) ∧
  s.regLock = .free ∧ s.logMutex = .free ∧ s.env.pmicStalled = false

/-! ### Invariants -/

/-- Reserved bits read 0 in every register, and CAUSE is 0 while the block is disabled (10_state R23 to R38, R33,
R41, R43). -/
def RegsOk (s : State) : Prop :=
  s.div &&& ~~~(divMask s.params) = 0 ∧ s.mpll &&& ~~~pllMask = 0 ∧ s.tpll &&& ~~~(tpllMask s.params) = 0 ∧
  s.pllsr &&& ~~~pllsrMask = 0 ∧ s.lpmcr &&& ~~~lpmcrMask = 0 ∧ s.inten &&& ~~~intenMask = 0 ∧
  s.dptccr &&& ~~~(dptccrMask s.params) = 0 ∧ s.dvfscr &&& ~~~(dvfscrMask s.params) = 0 ∧
  s.psr &&& ~~~0x3 = 0 ∧ s.result &&& ~~~0xFFFF = 0 ∧
  (dptcEn s.dptccr = false → dptcCause s.dptccr = 0)

/-- The log ring has its slots and its indices are in range (10_state R48). -/
def LogOk (s : State) : Prop :=
  0 < s.params.logCapacity ∧ s.log.buf.length = s.params.logCapacity ∧ s.log.head < s.params.logCapacity ∧
  s.log.tail < s.params.logCapacity

/-- PSR.BUSY is set exactly while SEQ runs a command (10_state R39, R43). -/
def BusyOk (s : State) : Prop := psrBusy s.psr = true ↔ s.seq ≠ .idle

/-- No short lock is held between steps, and dvfs_lock is held only by SEQ while it runs a command (10_state R51,
20_memory R80, R83). -/
def LocksOk (s : State) : Prop :=
  s.regLock = .free ∧ s.logMutex = .free ∧ (s.dvfsLock = .free ∨ (s.dvfsLock = .held .seq ∧ s.seq ≠ .idle))

/-- A line of a shared procedure that names a working point names one of the installed table. -/
def OpOk (s : State) : Op → Prop
  | .setCurrWp w => ∃ t, s.table = some t ∧ w < t.wpNum
  | .thresholds (some w) => ∃ t, s.table = some t ∧ w < t.wpNum
  | .pmicGet _ w => ∃ t, s.table = some t ∧ w < t.wpNum
  | .pmicSet _ w _ => ∃ t, s.table = some t ∧ w < t.wpNum
  | _ => True

/-- What a line SEQ still has to run must meet, `todo` being all of them: a working point or frequency index is in
range, a table to swap in is well shaped and only the return stands beside it, and no stop is one the table
invariants and FREQ_INDEX_OF's range exclude. -/
def SeqLineOk (s : State) (todo : List SeqLine) : SeqLine → Prop
  | .op o => OpOk s o
  | .assign (.freqIndex n) => n < s.params.nFreqStates
  | .readText n => todo = [.readText n]
  | .swap t => tableOk s.params t = true ∧ ∀ l ∈ todo, l = .swap t ∨ l = .ret 0 0
  | .stop f => f ≠ .thresholdsOutOfRange ∧ f ≠ .wpOutOfRange ∧ f ≠ .freqIndexOutOfRange
  | _ => True

/-- What a line RX still has to run must meet. -/
def RxLineOk (s : State) : RxLine → Prop
  | .op o => OpOk s o
  | _ => True

/-- The table invariants (10_state R47): the installed table has its shape, with `curr_wp < wp_num` and every
`dcvr[f][w]` present; `current_freq_index < dvfs_state_num`; and what SEQ and RX still have to do keeps it so. -/
def TableInv (s : State) : Prop :=
  (∀ t, s.table = some t → tableOk s.params t = true) ∧ s.currentFreqIndex < s.params.nFreqStates ∧
  (∀ job, s.seq = .run job → ∀ l ∈ job.todo, SeqLineOk s job.todo l) ∧
  (∀ todo, s.rx = .run todo → ∀ l ∈ todo, RxLineOk s l)

end Sys2Proof
end

