-- ==== Sys2Proof/Certificates/Slice0/Obligations.lean ====
section
/-! DEFINITION. The statements for the provers, each citing the rules of the spec it says. -/

open Sys2Proof Sys2Proof.Machine

/-! ### Encoding and decoding -/

/-- R90 to R92, R98: a word decodes to a command exactly when it is that command's word, and every other word is
refused. -/
def Obligations.DecodeAnswersExactlyTheCommandWords : Prop :=
  ∀ w : Word, (∀ i : Instr, decode w = .ok i ↔ w = encode i) ∧
    ((∃ e, decode w = .error e) ↔
      (w.extractLsb' 8 24 ≠ 0 ∨ ∀ i : Instr, i.opcode ≠ w.extractLsb' 0 8))

/-- R92: a few command words of every family, and reserved ones, read by hand from the opcode map. -/
def Obligations.SampleWordsDecodeByTheOpcodeMap : Prop :=
  decode 0x02 = .ok .dvfsIntscale ∧ decode 0x04 = .ok .dvfsRelock ∧ decode 0x0C = .ok .lpmEnter ∧
  decode 0x14 = .ok .dptcGetState ∧ decode 0x16 = .ok .setFreqIndex ∧ decode 0x21 = .ok .getTable ∧
  decode 0x28 = .ok .logRead ∧ decode 0x31 = .ok .sysResume ∧ decode 0x00 = .error (.reservedOp 0) ∧
  decode 0x17 = .error (.reservedOp 0x17) ∧ decode 0x110 = .error (.reservedZ 1)

/-- R91: SEQ's step runs the command its word decodes to. This holds of the step of a `.seq` turn, of the default
turn, and of the state `withFetchWord` makes. The order of turns is the model's (log 6), and so is `withFetchWord`
(log 7). -/
def Obligations.StepRunsTheDecodedCommand : Prop :=
  (∀ (s : State) (rest : List Input) (job : Job) (i : Instr),
    s.env.inputs = .seq :: rest → s.irqEnabled = false → s.seq = .run job → decode job.word = .ok i →
    step s = exec i (withInputs s rest)) ∧
  (∀ (s : State) (job : Job) (i : Instr),
    s.env.inputs = [] → s.irqEnabled = false → s.seq = .run job → decode job.word = .ok i → step s = exec i s) ∧
  (∀ (s : State) (nbits : Nat) (i : Instr),
    step (s.withFetchWord nbits (encode i).toNat) =
      exec i { s with psr := s.psr ||| 0x1, result := 0, rval0 := 0, rval1 := 0,
                      seq := .run { word := encode i, args := s.args, todo := [.start] }
                      dptccr := if s.irqEnabled then s.dptccr ||| 0x2 else s.dptccr })

/-- R98, R91: a word with Z not 0 or OP not in the map ends with Unsupported(UnknownCommand), whatever
`S.suspended`, and changes nothing but RESULT and BUSY. -/
def Obligations.ReservedWordRaisesUnknownCommand : Prop :=
  ∀ (s : State) (rest : List Input) (job : Job),
    s.env.inputs = .seq :: rest → s.irqEnabled = false → s.seq = .run job → s.dvfsLock = .free →
    (job.word.extractLsb' 8 24 ≠ 0 ∨ ∀ i : Instr, i.opcode ≠ job.word.extractLsb' 0 8) →
    step s = .next (raised (withInputs s rest) 0x1305)

/-- R320, R325: every command answers a next state at its first step, in every state; a first line that waits or
raises an error counts as an answer. That no command stops there is the model's step granularity (logs 12, 13, 31): the
checks are taken with the first line, and a fault found after the first read is a step of its own. -/
def Obligations.FirstStepOfEveryCommandAnswers : Prop :=
  ∀ (i : Instr) (s : State) (a : Args), AtStart s a → ∃ t, exec i s = .next t

/-- R17, R83, R89, R143, R144, R176: a command at a line that waits (a poll whose bit reads 0, the low-power wait, a
regulator call that is not answered, a held lock) takes its turn without changing anything, so it can wait for ever.
That a wait is a turn that changes nothing is the model's form (logs 6, 10, 11), and so is the wait for a held reg_lock
or dvfs_lock, which no run from reset meets (log 22). -/
def Obligations.WaitingLinesChangeNothing : Prop :=
  ∀ (i : Instr) (s : State) (a : Args) (l : SeqLine) (rest : List SeqLine), AtLines s a (l :: rest) →
    ((∃ b : PollBit, l = .poll b ∧ b.sample s.pllsr = false) ∨ l = .wfi ∨
      (∃ ch w, l = .op (.pmicGet ch w) ∧ s.env.pmicStalled = true) ∨
      (∃ ch w c, l = .op (.pmicSet ch w c) ∧ s.env.pmicStalled = true) ∨
      (∃ r m v, l = .op (.modify r m v) ∧ s.regLock ≠ .free) ∨ (l = .op .rcEnable ∧ s.regLock ≠ .free) ∨
      (∃ k, l = .readClock k ∧ s.regLock ≠ .free) ∨
      (l = .op .logInsert ∧ s.logMutex ≠ .free) ∨ (∃ n, l = .drainLog n ∧ s.logMutex ≠ .free) ∨
      (l = .acquireDvfs ∧ s.dvfsLock ≠ .free)) →
    exec i s = .next s

/-! ### The bus, the registers and the DATA window -/

/-- R39: what a CMD write of a HOST that is not stuck does, idle and BUSY, and that CMD reads as 0. That SEQ keeps the
whole word (R91 reads it) and that its position is a list of lines is the model's form (log 14). -/
def Obligations.CmdWriteStartsACommandOrSetsOvr : Prop :=
  ∀ (s : State) (rest : List Input) (c : Word), s.env.hostStuck = false →
    (s.env.inputs = .host (.write (s.params.pcsBase + 0x100) 4 c) :: rest → psrBusy s.psr = false →
      step s = .next { s with psr := s.psr ||| 0x1, result := 0, rval0 := 0, rval1 := 0,
                              seq := .run { word := c, args := s.args, todo := [.start] }
                              env := { s.env with inputs := rest } }) ∧
    (s.env.inputs = .host (.write (s.params.pcsBase + 0x100) 4 c) :: rest → psrBusy s.psr = true →
      step s = .next { s with psr := s.psr ||| 0x2, env := { s.env with inputs := rest } }) ∧
    (s.env.inputs = .host (.read (s.params.pcsBase + 0x100) 4) :: rest →
      step s = .next { s with env := { s.env with inputs := rest, hostData := 0 } })

/-- R71, R72, R78: the access of a HOST that is not stuck goes through exactly when it is an aligned word of the CSR or the
command port, or 1, 2 or 4 aligned bytes of the DATA window. A read changes nothing else. An access that is not
admitted has no effect but that the HOST is stuck, and a stuck HOST has no step. That an address below PCS_BASE is not
admitted either is the model's reading, and so is the form of a stuck HOST (log 15). -/
def Obligations.BusAdmitsAlignedAccessesOnly : Prop :=
  ∀ (s : State) (rest : List Input) (off size addr : Nat) (v : Word),
    let ok := (off < 0x124 ∧ off % 4 = 0 ∧ size = 4) ∨
      (0x1000 ≤ off ∧ off < 0x3000 ∧ (size = 1 ∨ size = 2 ∨ size = 4) ∧ off % size = 0)
    let stuck := Host.Outcome.next { s with env := { s.env with inputs := rest, hostStuck := true } }
    (s.env.hostStuck = false →
      (s.env.inputs = .host (.read (s.params.pcsBase + off) size) :: rest →
        (ok → ∃ d, step s = .next { s with env := { s.env with inputs := rest, hostData := d } }) ∧
        (¬ok → step s = stuck)) ∧
      (s.env.inputs = .host (.write (s.params.pcsBase + off) size v) :: rest →
        (ok → ∃ t, step s = .next t ∧ t.env.hostStuck = false) ∧ (¬ok → step s = stuck)) ∧
      (addr < s.params.pcsBase →
        (s.env.inputs = .host (.read addr size) :: rest ∨ s.env.inputs = .host (.write addr size v) :: rest) →
        step s = stuck)) ∧
    (s.env.hostStuck = true → ∀ a : HostAccess, s.env.inputs = .host a :: rest →
      step s = .next (withInputs s rest))

/-- R22 to R24, R28 to R31, R36 to R38, R40 to R42, R78: what a word reads back as after a HOST that is not stuck has
written `v` to it: the bits that exist, the old value of a read-only register; and a reserved offset reads 0 and ignores
a write. A write stores its value and changes nothing else: one of MPLL or TPLL no bit of PLLSR, and one of DIV starts
no switch where PLL_SEL stays as it was or a switch is in progress (R27; the switch itself is
`PllSwitchLocksThenCompletes`). PLLSR, DPTCCR, CMD and PSR have statements of their own. -/
def Obligations.RegistersReadBackTheBitsThatExist : Prop :=
  (∀ (s : State) (v : Word) (off : Nat) (d : Word), s.env.hostStuck = false →
    (off, d) ∈ [(0x000, v &&& (if s.params.capRelock then 0x1FF else 0x0FF)), (0x004, v &&& 0x3FFF7FFF),
      (0x008, if s.params.capRelock then v &&& 0x3FFF7FFF else 0), (0x010, v &&& 0x1F),
      (0x014, if s.env.probe then 1 else 0), (0x018, v &&& 0x1), (0x024, v), (0x028, v), (0x02C, v),
      (0x030, v), (0x034, if s.params.capDvfsHw then v &&& 0x1 else 0), (0x104, v),
      (0x108, v), (0x10C, v), (0x110, v), (0x114, s.result), (0x118, s.rval0), (0x11C, s.rval1)] →
    s.env.inputs = [.host (.write (s.params.pcsBase + off) 4 v), .host (.read (s.params.pcsBase + off) 4)] →
    ∃ t, core.run 2 s = .next t ∧ t.env.hostData = d ∧ t.seq = s.seq ∧ t.data = s.data) ∧
  (∀ (s t : State) (rest : List Input) (v : Word) (off : Nat), s.env.hostStuck = false →
    (off, t) ∈ [(0x004, { s with mpll := v &&& 0x3FFF7FFF }),
      (0x008, { s with tpll := if s.params.capRelock then v &&& 0x3FFF7FFF else 0 }),
      (0x010, { s with lpmcr := v &&& 0x1F }), (0x014, s), (0x018, { s with inten := v &&& 0x1 }),
      (0x024, { s with dcvr := { s.dcvr with v0 := v } }), (0x028, { s with dcvr := { s.dcvr with v1 := v } }),
      (0x02C, { s with dcvr := { s.dcvr with v2 := v } }), (0x030, { s with dcvr := { s.dcvr with v3 := v } }),
      (0x034, { s with dvfscr := if s.params.capDvfsHw then v &&& 0x1 else 0 }),
      (0x104, { s with args := { s.args with a0 := v } }), (0x108, { s with args := { s.args with a1 := v } }),
      (0x10C, { s with args := { s.args with a2 := v } }), (0x110, { s with args := { s.args with a3 := v } }),
      (0x114, s), (0x118, s), (0x11C, s)] →
    s.env.inputs = .host (.write (s.params.pcsBase + off) 4 v) :: rest → step s = .next (withInputs t rest)) ∧
  (∀ (s : State) (rest : List Input) (v : Word), s.env.hostStuck = false →
    s.env.inputs = .host (.write s.params.pcsBase 4 v) :: rest →
    ((s.params.capRelock && v.getLsbD 8) = s.div.getLsbD 8 ∨ s.pllsr.getLsbD 2 = true) →
    step s = .next { s with div := v &&& (if s.params.capRelock then 0x1FF else 0x0FF)
                            env := { s.env with inputs := rest } }) ∧
  (∀ (s : State) (rest : List Input) (off : Nat) (v : Word), s.env.hostStuck = false →
    (off = 0x01C ∨ (0x038 ≤ off ∧ off ≤ 0x0FC ∧ off % 4 = 0)) →
    (s.env.inputs = .host (.write (s.params.pcsBase + off) 4 v) :: rest → step s = .next (withInputs s rest)) ∧
    (s.env.inputs = .host (.read (s.params.pcsBase + off) 4) :: rest →
      step s = .next { s with env := { s.env with inputs := rest, hostData := 0 } }))

/-- R73, R74, R71: a HOST write of the DATA window stores the low bytes of the value least significant first and no
other byte changes; a HOST read puts the bytes together the same way, zero above them. -/
def Obligations.DataWindowIsLittleEndian : Prop :=
  ∀ (s : State) (rest : List Input) (off size : Nat) (v : Word),
    s.env.hostStuck = false → s.data.wf = true → off < 8192 → (size = 1 ∨ size = 2 ∨ size = 4) → off % size = 0 →
    (s.env.inputs = .host (.write (s.params.pcsBase + (0x1000 + off)) size v) :: rest →
      ∃ m : Memory, step s = .next { s with data := m, env := { s.env with inputs := rest } } ∧
        ∀ a, m.read a = if off ≤ a ∧ a < off + size then v.extractLsb' (8 * (a - off)) 8 else s.data.read a) ∧
    (s.env.inputs = .host (.read (s.params.pcsBase + (0x1000 + off)) size) :: rest →
      ∃ d : Word, step s = .next { s with env := { s.env with inputs := rest, hostData := d } } ∧
        ∀ k, d.extractLsb' (8 * k) 8 = if k < size then s.data.read (off + k) else 0)

/-! ### The bits the hardware moves -/

/-- R26: SW_DONE is write-1-to-clear, a write changes no other bit of PLLSR and nothing else, and only the switch's
completion sets it. -/
def Obligations.SwDoneIsClearedByOneAndSetByTheSwitchOnly : Prop :=
  (∀ (s : State) (rest : List Input) (v : Word), s.env.hostStuck = false →
    s.env.inputs = .host (.write (s.params.pcsBase + 0x00C) 4 v) :: rest →
    step s = .next { s with pllsr := if v.getLsbD 4 then s.pllsr &&& ~~~0x10 else s.pllsr
                            env := { s.env with inputs := rest } }) ∧
  (∀ (s : State) (v : Word), s.writeCsr .pllsr v =
    { s with pllsr := if v.getLsbD 4 then s.pllsr &&& ~~~0x10 else s.pllsr }) ∧
  (∀ s t : State, step s = .next t → pllsrSwDone s.pllsr = false → pllsrSwDone t.pllsr = true →
    ∃ rest, s.env.inputs = .pllDone :: rest)

/-- R27: a write that changes PLL_SEL sets DFSP_BUSY in the same step; the switch does not complete before the target
is locked; then CUR_PLL, DFSP_BUSY and SW_DONE change together, and the other PLL's lock stays. -/
def Obligations.PllSwitchLocksThenCompletes : Prop :=
  ∀ (s : State) (v : Word), s.env.hostStuck = false →
    s.params.capRelock = true → v.getLsbD 8 ≠ s.div.getLsbD 8 → s.pllsr.getLsbD 2 = false →
    s.pllsr.getLsbD (if v.getLsbD 8 then 1 else 0) = false →
    s.env.inputs = [.host (.write s.params.pcsBase 4 v), .pllDone, .pllLock, .pllDone] →
    core.run 1 s = .next { s with div := v &&& 0x1FF, pllsr := s.pllsr ||| 0x4, pllTarget := v.getLsbD 8
                                  env := { s.env with inputs := [.pllDone, .pllLock, .pllDone] } } ∧
    core.run 3 s = .next { s with div := v &&& 0x1FF, pllTarget := v.getLsbD 8
                                  pllsr := s.pllsr ||| (if v.getLsbD 8 then 0x6 else 0x5)
                                  env := { s.env with inputs := [.pllDone] } } ∧
    core.run 4 s = .next { s with div := v &&& 0x1FF, pllTarget := v.getLsbD 8
                                  pllsr := if v.getLsbD 8 then s.pllsr ||| 0x1A
                                           else (s.pllsr &&& ~~~0x8) ||| 0x11
                                  env := { s.env with inputs := [] } }

/-- R33: while the block is enabled and shows no cause the hardware may raise one (on a variant without SDMA); a
write of DPTC_EN 0 clears CAUSE in the same step; no other step changes CAUSE. -/
def Obligations.CauseIsRaisedByHardwareAndClearedByDisable : Prop :=
  (∀ (s : State) (rest : List Input) (c : Cause), s.env.inputs = .dptcCause c :: rest → dptcEn s.dptccr = true →
    dptcCause s.dptccr = 0 → s.params.hasSdma = false →
    step s = .next { s with dptccr := s.dptccr ||| (match c with | .decrease => 0x4 | .increase => 0x8 | .emergency => 0xC)
                            env := { s.env with inputs := rest } }) ∧
  (∀ (s : State) (v : Word), v.getLsbD 0 = false →
    dptcCause (s.writeCsr .dptccr v).dptccr = 0 ∧ dptcEn (s.writeCsr .dptccr v).dptccr = false) ∧
  (∀ s t : State, step s = .next t → dptcCause t.dptccr ≠ dptcCause s.dptccr →
    (dptcEn t.dptccr = false ∧ dptcCause t.dptccr = 0) ∨
    (dptcEn s.dptccr = true ∧ dptcCause s.dptccr = 0 ∧
      ((s.params.hasSdma = false ∧ ∃ c rest, s.env.inputs = .dptcCause c :: rest) ∨
        (s.params.hasSdma = true ∧ ∃ w c rest, s.env.inputs = .sdma w c :: rest))))

/-- R35: the one step of ENV_SDMA, when it may be taken, and how VOLT_VALID is written. -/
def Obligations.SdmaSelectsAWorkingPointInOneStep : Prop :=
  (∀ (s : State) (rest : List Input) (w : Nat) (c : Cause) (t : Table) (q : Quad),
    s.env.inputs = .sdma w c :: rest → s.table = some t → tableCell t s.currentFreqIndex w = some q →
    (s.params.hasSdma = true → dptcEn s.dptccr = true → dptcVoltValid s.dptccr = true → dptcCause s.dptccr = 0 →
      step s = .next { s with dcvr := q, table := some { t with currWp := w }
                              dptccr := (s.dptccr &&& ~~~0x100) |||
                                (match c with | .decrease => 0x4 | .increase => 0x8 | .emergency => 0xC)
                              env := { s.env with inputs := rest } }) ∧
    (¬(s.params.hasSdma = true ∧ dptcEn s.dptccr = true ∧ dptcVoltValid s.dptccr = true ∧ dptcCause s.dptccr = 0) →
      step s = .next (withInputs s rest))) ∧
  (∀ (s : State) (v : Word), s.params.hasSdma = true →
    dptcVoltValid (s.writeCsr .dptccr v).dptccr = (dptcVoltValid s.dptccr || v.getLsbD 8))
/-! ### The clock model and its arithmetic -/

/-- R121, R24, R325: the reference clock model: the PLL formula on the fields of the register, the AHB and IPG clocks
after their dividers, and the CPU clock at its BRMM point. R121 says the numerator is above 0; where it is not, the
frequency is a free value (log 17) and this says nothing. Reserved fields fault, whatever CLOCK_MODEL is. -/
def Obligations.PllFrequencyIsTheFormula : Prop :=
  ∀ (p : Params) (turbo : Bool) (r d : Word),
    let mfn := (r.extractLsb' 0 11).toInt
    let mfi := (r.extractLsb' 11 4).toNat
    let mfd := (r.extractLsb' 16 10).toNat
    let pdf := (r.extractLsb' 26 4).toNat
    let pll := 2 * p.refHz * ((mfi * mfd : Nat) + mfn).toNat / (mfd * (pdf + 1))
    let ahb := pll / ((d.extractLsb' 3 3).toNat + 1)
    (p.clockModelFn = .reference → 1 ≤ mfd → 5 ≤ mfi → 0 ≤ (mfi * mfd : Nat) + mfn →
      pllHz p turbo r = .ok pll ∧ clockHz p (.ahb turbo r d) = .ok ahb ∧
      clockHz p (.ipg turbo r d) = .ok (ahb / ((d.extractLsb' 6 2).toNat + 1)) ∧
      cpuHz p turbo r d = brmmPoint pll ahb (d.extractLsb' 0 3).toNat) ∧
    (mfd = 0 ∨ mfi < 5 → pllHz p turbo r = .error .pllFieldReserved ∧
      cpuHz p turbo r d = .error .pllFieldReserved) ∧
    (1 ≤ mfd → 5 ≤ mfi → 4 < (d.extractLsb' 0 3).toNat → cpuHz p turbo r d = .error .brmmReserved)

/-- R122: the BRMM points, their two ends, the two faults; and the points fall as `k` rises. -/
def Obligations.BrmmPointsRunFromPllDownToAhb : Prop :=
  ∀ (pll ahb k : Nat),
    (k ≤ 4 → (4 - k) * ahb + k * pll ≠ 0 →
      brmmPoint pll ahb k = .ok (4 * pll * ahb / ((4 - k) * ahb + k * pll))) ∧
    (k ≤ 4 → (4 - k) * ahb + k * pll = 0 → brmmPoint pll ahb k = .error .brmmDivisorZero) ∧
    (4 < k → brmmPoint pll ahb k = .error .brmmReserved) ∧
    (0 < ahb → brmmPoint pll ahb 0 = .ok pll) ∧ (0 < pll → brmmPoint pll ahb 4 = .ok ahb) ∧
    (∀ j x y, 0 < ahb → ahb ≤ pll → j ≤ k → brmmPoint pll ahb j = .ok x → brmmPoint pll ahb k = .ok y → y ≤ x)

/-- R128, R129: calc_brmm gives the first exact point, else the point whose period is nearest, the smallest on a
tie. -/
def Obligations.BrmmIsExactElseNearestInPeriod : Prop :=
  ∀ (req pll ahb : Nat),
    let err : Nat → Nat := fun k => ((4 * pll * ahb : Int) - req * ((4 - (k : Int)) * ahb + k * pll)).natAbs
    (∀ k, k ≤ 4 → req * ((4 - k) * ahb + k * pll) = 4 * pll * ahb →
      (∀ j, j < k → req * ((4 - j) * ahb + j * pll) ≠ 4 * pll * ahb) → calcBrmm req pll ahb = k) ∧
    ((∀ k, k ≤ 4 → req * ((4 - k) * ahb + k * pll) ≠ 4 * pll * ahb) →
      calcBrmm req pll ahb = nearestBrmm req pll ahb) ∧
    nearestBrmm req pll ahb ≤ 4 ∧ (∀ k, k ≤ 4 → err (nearestBrmm req pll ahb) ≤ err k) ∧
    (∀ k, k < nearestBrmm req pll ahb → err (nearestBrmm req pll ahb) < err k)

/-- R132, R133, R140, R142: the AHB and IPG dividers as the rules compute them, with the result at or below the
ceiling after the one increment; and the relock's divider, the smallest that keeps the AHB clock at or below
BUS_MAX_HZ. -/
def Obligations.DividersKeepTheClocksAtTheirCeilings : Prop :=
  (∀ x y : Nat, 0 < y →
    let m := x / y - 1
    let n := if y < x / (m + 1) then m + 1 else m
    x / (n + 1) ≤ y ∧
    ahbPdf x y = (if 7 < n then .error .ahbMaxDividerExceeded else .ok n) ∧
    ipgPdf x y = (if 3 < n then .error .ipgMaxDividerExceeded else .ok n)) ∧
  (∀ f bus : Nat, 0 < bus →
    f ≤ bus * (relockPdf f bus + 1) ∧ (∀ p, p < relockPdf f bus → bus * (p + 1) < f))

/-- R135, R136, R137: what PLL scaling writes: MFD and PDF as they were, MFI the floor quotient but at least 5, and
MFN the remainder, but the old MFN exactly when the output with the remainder would be above the request and the
current one covers it. With the reference clock model a clamped MFI is the only way to come out above the request. -/
def Obligations.PllScalingKeepsMfdAndPdfAndFloors : Prop :=
  ∀ (p : Params) (turbo : Bool) (req : Nat) (r w : Word) (cur new : Nat), pllScale p turbo req r = .ok (cur, w, new) →
    let total := req * (pllPdf r + 1) * pllMfd r / (2 * p.refHz)
    let m := max (total / pllMfd r) 5
    let rem := total % pllMfd r
    pllHz p turbo r = .ok cur ∧ pllHz p turbo w = .ok new ∧ pllPdf w = pllPdf r ∧ pllMfd w = pllMfd r ∧
    pllMfi w = m ∧ w &&& ~~~0x3FFF7FFF = 0 ∧
    (∃ new0, pllHz p turbo (pllWith r m rem) = .ok new0 ∧
      pllMfn w = if req < new0 ∧ req ≤ cur then pllMfn r else rem) ∧
    (p.clockModelFn = .reference → 5 ≤ total / pllMfd r → new ≤ req)

/-! ### DVFS commands -/

/-- R123: the capability, then the bus and peripheral frequencies, then the ARM range with both bounds inclusive; no
register is read or written before the checks pass, and the first step after them takes dvfs_lock. -/
def Obligations.RequestsAreValidatedInOrder : Prop :=
  ∀ (s : State) (w : Word) (a : Args) (i : Instr) (cap : Bool),
    s.seq = .run { word := w, args := a, todo := [.start] } → Unlocked s →
    ((i = .dvfsIntscale ∧ cap = s.params.capIntscale) ∨ (i = .dvfsPllscale ∧ cap = s.params.capPllscale) ∨
      (i = .dvfsReqFreq ∧ cap = (s.params.capIntscale || s.params.capPllscale))) →
    (cap = false → exec i s = .next (raised s 0x0705)) ∧
    (cap = true → (a.a1.toNat ≠ s.params.busMaxHz ∨ a.a2.toNat ≠ s.params.perMaxHz) →
      exec i s = .next (raised s 0x0201)) ∧
    (cap = true → a.a1.toNat = s.params.busMaxHz → a.a2.toNat = s.params.perMaxHz →
      (a.a0.toNat < s.params.armMinHz ∨ s.params.armMaxHz < a.a0.toNat) → exec i s = .next (raised s 0x0101)) ∧
    (cap = true → ValidRequest s a →
      ∃ todo, exec i s = .next { s with dvfsLock := .held .seq, irqOff := true
                                        seq := .run { word := w, args := a, todo := todo } })

/-- R125, R127, R128, R130, R124: integer scaling with a matching AHB divider runs through in six steps: BRMM takes
the value of R128 and nothing else changes; the lock is taken and released.
The number of steps is the model's (logs 12, 13). -/
def Obligations.IntscaleWithMatchingAhbWritesBrmmOnly : Prop :=
  ∀ (s : State) (a : Args) (i : Instr) (pll : Nat), AtStart s a → Unlocked s → RegsOk s →
    (i = .dvfsIntscale ∨ i = .dvfsReqFreq) → s.params.capIntscale = true → ValidRequest s a →
    pllHz s.params (s.pllsr.getLsbD 3) (if s.pllsr.getLsbD 3 then s.tpll else s.mpll) = .ok pll → a.a0.toNat ≤ pll →
    pll / 1000000 / (divAhbPdf s.div + 1) = a.a1.toNat / 1000000 →
    execTimes i 6 s = .next { ended s 0 0 with
      div := (s.div &&& ~~~0x7) ||| BitVec.ofNat 32 (calcBrmm a.a0.toNat pll (pll / (divAhbPdf s.div + 1))) }

/-- R125, R127, R130, R131 to R134, R124: integer scaling with another AHB divider first writes AHB_PDF and IPG_PDF,
then BRMM for the AHB clock they give; eight steps, and nothing but DIV changes.
The number of steps is the model's (logs 12, 13). -/
def Obligations.IntscaleAdjustsTheDividersFirst : Prop :=
  ∀ (s : State) (a : Args) (i : Instr) (pll ap ip : Nat), AtStart s a → Unlocked s → RegsOk s →
    (i = .dvfsIntscale ∨ i = .dvfsReqFreq) → s.params.capIntscale = true → ValidRequest s a →
    pllHz s.params (s.pllsr.getLsbD 3) (if s.pllsr.getLsbD 3 then s.tpll else s.mpll) = .ok pll → a.a0.toNat ≤ pll →
    pll / 1000000 / (divAhbPdf s.div + 1) ≠ a.a1.toNat / 1000000 →
    1000000 ≤ a.a1.toNat → 1000000 ≤ a.a2.toNat →
    ahbPdf (pll / 1000000) (a.a1.toNat / 1000000) = .ok ap →
    ipgPdf (pll / 1000000 / (ap + 1)) (a.a2.toNat / 1000000) = .ok ip →
    execTimes i 5 s = .next { s with
      dvfsLock := .held .seq, irqOff := true, div := (s.div &&& 0x107) ||| BitVec.ofNat 32 (64 * ip + 8 * ap)
      seq := match s.seq with
        | .run job => .run { job with todo := [.read .div (.intDivAgain pll)] }
        | .idle => .idle } ∧
    execTimes i 8 s = .next { ended s 0 0 with
      div := (s.div &&& 0x100) ||| BitVec.ofNat 32 (64 * ip + 8 * ap + calcBrmm a.a0.toNat pll (pll / (ap + 1))) }

/-- R126, R131, R132, R133: a request above the PLL, or a divider above its maximum, ends integer scaling with its
error; no register is written and the lock is released.
The number of steps is the model's (logs 12, 13). -/
def Obligations.IntscaleErrorsWriteNoRegister : Prop :=
  ∀ (s : State) (a : Args) (i : Instr) (pll : Nat), AtStart s a → Unlocked s →
    (i = .dvfsIntscale ∨ i = .dvfsReqFreq) → s.params.capIntscale = true → ValidRequest s a →
    pllHz s.params (s.pllsr.getLsbD 3) (if s.pllsr.getLsbD 3 then s.tpll else s.mpll) = .ok pll →
    (pll < a.a0.toNat → execTimes i 4 s = .next (raised s 0x0601)) ∧
    (a.a0.toNat ≤ pll → pll / 1000000 / (divAhbPdf s.div + 1) ≠ a.a1.toNat / 1000000 →
      1000000 ≤ a.a1.toNat → 1000000 ≤ a.a2.toNat →
      (ahbPdf (pll / 1000000) (a.a1.toNat / 1000000) = .error .ahbMaxDividerExceeded →
        execTimes i 5 s = .next (raised s 0x0301)) ∧
      (∀ ap, ahbPdf (pll / 1000000) (a.a1.toNat / 1000000) = .ok ap →
        ipgPdf (pll / 1000000 / (ap + 1)) (a.a2.toNat / 1000000) = .error .ipgMaxDividerExceeded →
        execTimes i 5 s = .next (raised s 0x0401)))

/-- R135, R138, R139, R124: PLL scaling runs through, in either order: the active PLL's register takes the word of
R136 and R137, BRMM becomes 0, AHB_PDF and IPG_PDF take the values for the new PLL output, and nothing else
changes.
The number of steps is the model's (logs 12, 13). -/
def Obligations.PllscaleWritesThePllAndTheDividers : Prop :=
  ∀ (s : State) (a : Args) (i : Instr) (cur new ap ip : Nat) (w : Word), AtStart s a → Unlocked s → RegsOk s →
    (i = .dvfsPllscale ∨ (i = .dvfsReqFreq ∧ s.params.capIntscale = false)) → s.params.capPllscale = true →
    ValidRequest s a →
    pllScale s.params (s.pllsr.getLsbD 3) a.a0.toNat (if s.pllsr.getLsbD 3 then s.tpll else s.mpll) = .ok (cur, w, new) →
    1000000 ≤ a.a1.toNat → 1000000 ≤ a.a2.toNat →
    ahbPdf (new / 1000000) (a.a1.toNat / 1000000) = .ok ap →
    ipgPdf (new / 1000000 / (ap + 1)) (a.a2.toNat / 1000000) = .ok ip →
    execTimes i (if divBrmm s.div = 0 then 7 else 8) s = .next { ended s 0 0 with
      mpll := if s.pllsr.getLsbD 3 then s.mpll else w
      tpll := if s.pllsr.getLsbD 3 then w else s.tpll
      div := (s.div &&& 0x100) ||| BitVec.ofNat 32 (64 * ip + 8 * ap) }

/-- R135, R138, R364: a divider above its maximum ends PLL scaling with its error. Above the current lock the
dividers come first and nothing has been written; at or below it the PLL word and BRMM 0 stay, with the old
dividers.
The number of steps is the model's (logs 12, 13). -/
def Obligations.PllscaleDividerErrorsLeavePartialState : Prop :=
  ∀ (s : State) (a : Args) (i : Instr) (cur new : Nat) (w r : Word), AtStart s a → Unlocked s → RegsOk s →
    (i = .dvfsPllscale ∨ (i = .dvfsReqFreq ∧ s.params.capIntscale = false)) → s.params.capPllscale = true →
    ValidRequest s a →
    pllScale s.params (s.pllsr.getLsbD 3) a.a0.toNat (if s.pllsr.getLsbD 3 then s.tpll else s.mpll) = .ok (cur, w, new) →
    1000000 ≤ a.a1.toNat → 1000000 ≤ a.a2.toNat →
    ((ahbPdf (new / 1000000) (a.a1.toNat / 1000000) = .error .ahbMaxDividerExceeded ∧ r = 0x0301) ∨
      (∃ ap, ahbPdf (new / 1000000) (a.a1.toNat / 1000000) = .ok ap ∧
        ipgPdf (new / 1000000 / (ap + 1)) (a.a2.toNat / 1000000) = .error .ipgMaxDividerExceeded ∧ r = 0x0401)) →
    (cur < a.a0.toNat → execTimes i 5 s = .next (raised s r)) ∧
    (a.a0.toNat ≤ cur → execTimes i (if divBrmm s.div = 0 then 6 else 7) s = .next { raised s r with
      mpll := if s.pllsr.getLsbD 3 then s.mpll else w
      tpll := if s.pllsr.getLsbD 3 then w else s.tpll
      div := s.div &&& ~~~0x7 })

/-- R140, R142 to R145, R27: a relock to the other PLL: four steps to the combined write, which starts the switch;
once ENV_PLL has locked the target and completed the switch, four more to the end. PLL_SEL, AHB_PDF and BRMM 0 are
written together, IPG_PDF is kept, the target drives the core and SW_DONE is clear.
The number of steps is the model's (logs 12, 13). -/
def Obligations.RelockSwitchesThePll : Prop :=
  ∀ (s : State) (a : Args) (t : Bool) (f : Nat), AtStart s a → Unlocked s → RegsOk s →
    s.params.capRelock = true → a.a0 = (if t then 1 else 0) → s.pllsr.getLsbD 2 = false →
    s.pllsr.getLsbD 3 ≠ t → s.div.getLsbD 8 ≠ t →
    pllHz s.params t (if t then s.tpll else s.mpll) = .ok f → 0 < s.params.busMaxHz →
    relockPdf f s.params.busMaxHz ≤ 7 →
    ∃ u, execTimes .dvfsRelock 4 s = .next u ∧
      u.div = (s.div &&& 0x0C0) ||| BitVec.ofNat 32 ((if t then 256 else 0) + 8 * relockPdf f s.params.busMaxHz) ∧
      u.pllsr = s.pllsr ||| 0x4 ∧ u.dvfsLock = .held .seq ∧ u.irqOff = true ∧
      (s.pllsr.getLsbD (if t then 1 else 0) = false → exec .dvfsRelock u = .next u) ∧
      execTimes .dvfsRelock 4 (envPllDone (envPllLock u)) = .next { ended s 0 0 with
        div := (s.div &&& 0x0C0) ||| BitVec.ofNat 32 ((if t then 256 else 0) + 8 * relockPdf f s.params.busMaxHz)
        pllTarget := t
        pllsr := if t then (s.pllsr &&& ~~~0x10) ||| 0xA else (s.pllsr &&& ~~~0x18) ||| 0x1 }

/-- R146: a relock to the PLL that already drives the core, with no switch in progress, returns Ok and writes
nothing.
The number of steps is the model's (logs 12, 13). -/
def Obligations.RelockToTheSamePllWritesNothing : Prop :=
  ∀ (s : State) (a : Args) (t : Bool), AtStart s a → Unlocked s → s.params.capRelock = true →
    a.a0 = (if t then 1 else 0) → s.pllsr.getLsbD 2 = false → s.pllsr.getLsbD 3 = t →
    execTimes .dvfsRelock 3 s = .next (ended s 0 0)

/-- R140, R141, R147: every error of a relock comes before its write, in this order.
The number of steps is the model's (logs 12, 13). -/
def Obligations.RelockErrorsWriteNothing : Prop :=
  ∀ (s : State) (a : Args), AtStart s a → Unlocked s →
    (s.params.capRelock = false → exec .dvfsRelock s = .next (raised s 0x0705)) ∧
    (s.params.capRelock = true → 1 < a.a0.toNat → exec .dvfsRelock s = .next (raised s 0x1401)) ∧
    (s.params.capRelock = true → a.a0.toNat ≤ 1 → s.pllsr.getLsbD 2 = true →
      execTimes .dvfsRelock 3 s = .next (raised s 0x0503)) ∧
    (∀ (t : Bool) (f : Nat), s.params.capRelock = true → a.a0 = (if t then 1 else 0) → s.pllsr.getLsbD 2 = false →
      s.pllsr.getLsbD 3 ≠ t → pllHz s.params t (if t then s.tpll else s.mpll) = .ok f → 0 < s.params.busMaxHz →
      7 < relockPdf f s.params.busMaxHz → execTimes .dvfsRelock 4 s = .next (raised s 0x0301))

/-- R148, R149: DVFS_ENABLE and DVFS_DISABLE set and clear DVFS_EN and `S.dvfs_active`, each in three steps, and
change nothing else; the errors with no write.
The number of steps is the model's (logs 12, 13). -/
def Obligations.DvfsBlockIsEnabledAndDisabled : Prop :=
  ∀ (s : State) (a : Args), AtStart s a → Unlocked s → s.suspended = false →
    (s.params.capDvfsHw = true → s.dvfsActive = false →
      execTimes .dvfsEnable 3 s = .next { ended s 0 0 with dvfscr := 1, dvfsActive := true }) ∧
    (s.params.capDvfsHw = true → s.dvfsActive = true →
      execTimes .dvfsDisable 3 s = .next { ended s 0 0 with dvfscr := 0, dvfsActive := false }) ∧
    (s.params.capDvfsHw = false → exec .dvfsEnable s = .next (raised s 0x0705) ∧
      exec .dvfsDisable s = .next (raised s 0x0705)) ∧
    (s.params.capDvfsHw = true → s.dvfsActive = true → exec .dvfsEnable s = .next (raised s 0x0802)) ∧
    (s.params.capDvfsHw = true → s.dvfsActive = false → exec .dvfsDisable s = .next (raised s 0x0902))

/-- R150, R202, R294: the two state getters answer in one step, suspended or not, and change nothing else. -/
def Obligations.StateGettersAnswerInOneStep : Prop :=
  ∀ (s : State) (a : Args), AtStart s a → Unlocked s →
    exec .dptcGetState s = .next (ended s (if s.dptcActive then 1 else 0) 0) ∧
    (s.params.capDvfsHw = true → exec .dvfsGetState s = .next (ended s (if s.dvfsActive then 1 else 0) 0)) ∧
    (s.params.capDvfsHw = false → exec .dvfsGetState s = .next (raised s 0x0705))

/-- R151, R121: GET_CPU_FREQ returns the BRMM point of the active PLL's clock and DIV, low word and high word, and
changes nothing else; a reserved field or a zero divisor faults, in the second step (log 31). The PLL's clock is
CLOCK_MODEL's; that the CPU clock is the point its line writes out, and not CLOCK_MODEL's CPU clock where that is free,
is the model's choice (log 20).
The number of steps is the model's (logs 12, 13). -/
def Obligations.GetCpuFreqReturnsTheClockModel : Prop :=
  ∀ (s : State) (a : Args), AtStart s a → Unlocked s →
    (∀ pll hz, pllHz s.params (s.pllsr.getLsbD 3) (if s.pllsr.getLsbD 3 then s.tpll else s.mpll) = .ok pll →
      brmmPoint pll (pll / (divAhbPdf s.div + 1)) (divBrmm s.div) = .ok hz →
      execTimes .getCpuFreq 2 s = .next (ended s (BitVec.ofNat 32 hz) (BitVec.ofNat 32 (hz / 2 ^ 32)))) ∧
    (∀ f, pllHz s.params (s.pllsr.getLsbD 3) (if s.pllsr.getLsbD 3 then s.tpll else s.mpll) = .error f →
      execTimes .getCpuFreq 2 s = .fault f) ∧
    (∀ pll, pllHz s.params (s.pllsr.getLsbD 3) (if s.pllsr.getLsbD 3 then s.tpll else s.mpll) = .ok pll → 4 < divBrmm s.div →
      execTimes .getCpuFreq 2 s = .fault .brmmReserved) ∧
    (∀ pll, pllHz s.params (s.pllsr.getLsbD 3) (if s.pllsr.getLsbD 3 then s.tpll else s.mpll) = .ok pll →
      divBrmm s.div ≤ 4 → (4 - divBrmm s.div) * (pll / (divAhbPdf s.div + 1)) + divBrmm s.div * pll = 0 →
      execTimes .getCpuFreq 2 s = .fault .brmmDivisorZero)

/-! ### Low power -/

/-- R171, R180: a mode above 3 is refused before any step; with the probe attached any mode returns 1 at once and
nothing else changes.
The number of steps is the model's (logs 12, 13). -/
def Obligations.LpmRefusesBadModesAndSkipsWithAProbe : Prop :=
  ∀ (s : State) (a : Args), AtStart s a → Unlocked s →
    (3 < a.a0.toNat → exec .lpmEnter s = .next (raised s 0x1401)) ∧
    (a.a0.toNat ≤ 3 → s.env.probe = true → execTimes .lpmEnter 2 s = .next (ended s 1 0))

/-- R170, R172 to R178, R181: each mode writes its registers and waits with interrupts off; after the wake, TIMER_IE
is 1, the interrupt state is as before, LPMCR stays as the mode left it, and the command returns 0. The wake is the
turn of ENV_WAKE, which moves SEQ past the wait (log 11) and does nothing where SEQ does not wait.
The number of steps is the model's (logs 12, 13). -/
def Obligations.LpmModesWriteWaitAndRestore : Prop :=
  (∀ (s : State) (rest : List Input), s.env.inputs = .wake :: rest →
    step s = .next (envWake (withInputs s rest)) ∧
    (∀ w a todo, s.seq = .run { word := w, args := a, todo := .wfi :: todo } →
      step s = .next { withInputs s rest with seq := .run { word := w, args := a, todo := todo } }) ∧
    ((∀ w a todo, s.seq ≠ .run { word := w, args := a, todo := .wfi :: todo }) →
      step s = .next (withInputs s rest))) ∧
  ∀ (s : State) (w : Word) (a : Args) (n : Nat) (lpm : Word),
    s.seq = .run { word := w, args := a, todo := [.start] } → s.regLock = .free → s.dvfsLock = .free →
    s.env.probe = false →
    (a.a0, n, lpm) ∈ [((0 : Word), 2, s.lpmcr), (1, 4, (s.lpmcr &&& ~~~0x3) ||| 0x2),
      (2, 5, (s.lpmcr &&& ~~~0x7) ||| 0x3), (3, 7, 0x1B)] →
    s.lpmcr &&& ~~~0x1F = 0 →
    let u := { s with irqOff := true, lpmcr := lpm, inten := if a.a0 = 0 then s.inten else 0
                      seq := .run { word := w, args := a
                                    todo := [.wfi, .op (.modify .inten 0x1 0x1), .restoreIrq s.irqOff, .ret 0 0] } }
    execTimes .lpmEnter n s = .next u ∧ exec .lpmEnter u = .next u ∧
    execTimes .lpmEnter 3 (envWake u) = .next { ended s 0 0 with lpmcr := lpm, inten := 1 }

/-- R172, R175, R368: the order of the writes of DEEP_SLEEP: the timer first, then WBEN, SBYOS, PLL_DIS and LPM, one
step each.
The number of steps is the model's (logs 12, 13). -/
def Obligations.DeepSleepWritesInOrder : Prop :=
  ∀ (s : State) (a : Args), AtStart s a → s.regLock = .free → s.env.probe = false → a.a0 = 3 →
    s.lpmcr &&& ~~~0x1F = 0 →
    ∀ k lpm, (k, lpm) ∈ [(3, s.lpmcr), (4, s.lpmcr ||| 0x8), (5, s.lpmcr ||| 0x18),
        (6, (s.lpmcr ||| 0x18) &&& ~~~0x4), (7, ((s.lpmcr ||| 0x18) &&& ~~~0x4) ||| 0x3)] →
      ∃ t, execTimes .lpmEnter k s = .next t ∧ t.inten = 0 ∧ t.lpmcr = lpm
/-! ### DPTC commands -/

/-- R190, R198, R199, R300, R301: DPTC_ENABLE from its first step to its end: the regulator takes the current working
point's values, the frequency index is that of the CPU clock, DCVR0 to DCVR3 are its thresholds, RCEN is `rc_state`,
one log entry is added, the flag is set, and the block is enabled and unmasked. Nothing else changes.
The number of steps is the model's (logs 12, 13). -/
def Obligations.DptcEnableStartsTheEngine : Prop :=
  ∀ (s : State) (a : Args) (t : Table) (vals : List Word) (hz : Nat) (q : Quad),
    AtStart s a → Unlocked s → RegsOk s → s.suspended = false → s.env.pmicStalled = false →
    s.table = some t → s.dptcActive = false → t.wp[t.currWp]? = some vals →
    cpuHz s.params (s.pllsr.getLsbD 3) (if s.pllsr.getLsbD 3 then s.tpll else s.mpll) s.div = .ok hz →
    freqIndexBy s.params.freqIndexFn hz t < t.dvfsStateNum →
    tableCell t (freqIndexBy s.params.freqIndexFn hz t) t.currWp = some q →
    execTimes .dptcEnable (if s.params.dualSwitcher then 16 else 14) s = .next { ended s 0 0 with
      env := voltageDone s.params s.env vals
      currentFreqIndex := freqIndexBy s.params.freqIndexFn hz t
      dcvr := q
      dptccr := (s.dptccr &&& ~~~(0xF3 : Word)) ||| ((s.rcState.setWidth 32 : Word) <<< 4) ||| 0x1
      log := logPush s.params.logCapacity s.log
        (entryOf { s with currentFreqIndex := freqIndexBy s.params.freqIndexFn hz t } t.currWp vals)
      dptcActive := true }

/-- R191, R192 to R195, R33: DPTC_DISABLE disables the block, which clears CAUSE, masks it, sets working point 0 with
its thresholds (not with SDMA), voltage and log entry, and clears the flag; RCEN is kept and nothing else changes.
The number of steps is the model's (logs 12, 13). -/
def Obligations.DptcDisableStopsTheEngineAtPointZero : Prop :=
  ∀ (s : State) (a : Args) (t : Table) (q : Quad) (vals : List Word),
    AtStart s a → Unlocked s → RegsOk s → s.suspended = false → s.dptcActive = true →
    SetWpReady s t 0 q vals →
    execTimes .dptcDisable (setWpSteps s.params + 4) s = .next { ended (setWpDone s t 0 q vals) 0 0 with
      dptccr := (s.dptccr &&& ~~~0xF) ||| 0x2
      dptcActive := false }

/-- R196, R192 to R195: DPTC_SET_WP sets the working point clamped into the table, with its thresholds (not with
SDMA), voltage and log entry, and returns it; nothing else changes.
The number of steps is the model's (logs 12, 13). -/
def Obligations.DptcSetWpSetsTheClampedPoint : Prop :=
  ∀ (s : State) (a : Args) (t : Table) (q : Quad) (vals : List Word),
    AtStart s a → Unlocked s → s.suspended = false → s.dptcActive = false →
    SetWpReady s t (min a.a0.toInt.toNat (t.wpNum - 1)) q vals →
    execTimes .dptcSetWp (setWpSteps s.params + 1) s =
      .next (ended (setWpDone s t (min a.a0.toInt.toNat (t.wpNum - 1)) q vals)
        (BitVec.ofNat 32 (min a.a0.toInt.toNat (t.wpNum - 1))) 0)

/-- R197, R200, R201: SET_FREQ_INDEX writes `S.current_freq_index`, and the reference-circuit commands set and clear
the bits of the mask in `S.rc_state`, in two steps each; nothing else changes.
The number of steps is the model's (logs 12, 13). -/
def Obligations.SettingCommandsWriteOneVariable : Prop :=
  ∀ (s : State) (a : Args), AtStart s a → Unlocked s → s.suspended = false → s.dptcActive = false →
    (∀ t, s.table = some t → a.a0.toNat < t.dvfsStateNum →
      (s.dvfsActive = false ∨ s.params.dvfsPredictive = true) →
      execTimes .setFreqIndex 2 s = .next { ended s 0 0 with currentFreqIndex := a.a0.toNat }) ∧
    (a.a0.toNat ≤ 0xF →
      execTimes .dptcEnableRc 2 s = .next { ended s 0 0 with rcState := s.rcState ||| a.a0.setWidth 4 } ∧
      execTimes .dptcDisableRc 2 s = .next { ended s 0 0 with rcState := s.rcState &&& ~~~(a.a0.setWidth 4) })

/-- R190, R191, R196, R197, R200, R201, R203, R323: the errors of the DPTC commands, in their order, each at the
first step and with no write. -/
def Obligations.DptcCommandsCheckInOrder : Prop :=
  ∀ (s : State) (a : Args), AtStart s a → Unlocked s → s.suspended = false →
    (s.table = none → exec .dptcEnable s = .next (raised s 0x1502) ∧ exec .dptcSetWp s = .next (raised s 0x1502) ∧
      exec .setFreqIndex s = .next (raised s 0x1502)) ∧
    (∀ t, s.table = some t →
      (s.dptcActive = true → exec .dptcEnable s = .next (raised s 0x0802) ∧
        exec .dptcSetWp s = .next (raised s 0x0C02)) ∧
      (t.dvfsStateNum ≤ a.a0.toNat → exec .setFreqIndex s = .next (raised s 0x0B01)) ∧
      (a.a0.toNat < t.dvfsStateNum →
        (s.dptcActive = true ∨ (s.dvfsActive = true ∧ s.params.dvfsPredictive = false)) →
        exec .setFreqIndex s = .next (raised s 0x0C02))) ∧
    (s.dptcActive = false → exec .dptcDisable s = .next (raised s 0x0902)) ∧
    (0xF < a.a0.toNat → exec .dptcEnableRc s = .next (raised s 0x0D01) ∧
      exec .dptcDisableRc s = .next (raised s 0x0D01)) ∧
    (a.a0.toNat ≤ 0xF → s.dptcActive = true → exec .dptcEnableRc s = .next (raised s 0x0A02) ∧
      exec .dptcDisableRc s = .next (raised s 0x0A02))

/-- R290, R291: a gated command that finds `S.suspended` raises Suspended before every other check and writes
nothing; the other commands do not look at the flag in any of their steps (`setSuspended` is the line of SYS_SUSPEND
and SYS_RESUME alone, which write it). -/
def Obligations.SuspendGateComesFirst : Prop :=
  (∀ (s : State) (a : Args) (i : Instr), AtStart s a → Unlocked s → s.suspended = true →
    i ∈ [Instr.dptcEnable, .dptcDisable, .dptcEnableRc, .dptcDisableRc, .dptcSetWp, .setFreqIndex, .setTable,
      .dvfsEnable, .dvfsDisable, .logRead] →
    exec i s = .next (raised s 0x1206)) ∧
  (∀ (s t : State) (i : Instr) (b : Bool),
    (∀ job, s.seq = .run job → ∀ b', SeqLine.setSuspended b' ∉ job.todo) →
    i ∈ [Instr.dptcGetState, .dvfsGetState, .getCpuFreq, .getTable, .dvfsReqFreq, .dvfsIntscale, .dvfsPllscale,
      .dvfsRelock, .lpmEnter] →
    exec i s = .next t → exec i { s with suspended := b } = .next { t with suspended := b }) ∧
  (∀ (s : State) (a : Args) (i : Instr) (b : Bool), AtStart s a → i ∈ [Instr.sysSuspend, .sysResume] →
    exec i { s with suspended := b } = exec i s)

/-! ### The interrupt and the reactor -/

/-- R230 to R233, R240, R335, R336, R81: an enabled IRQ is taken at its own turn, and before the next SEQ or RX step,
whose turn stays to come (log 28); the handler masks
and disables the block, which clears CAUSE, and posts the cause over any waiting one; no position and nothing else
changes, and the line is down after it. While interrupts are disabled neither IRQ nor RX steps. -/
def Obligations.IrqMasksDisablesAndPostsTheCause : Prop :=
  (∀ (s : State) (rest : List Input), RegsOk s → irqLine s.dptccr = true → s.irqOff = false →
    (s.env.inputs = [] ∨ s.env.inputs = .seq :: rest ∨ s.env.inputs = .rx :: rest) →
    ∃ t, step s = .next t ∧ irqLine t.dptccr = false ∧
      t = { s with dptccr := (s.dptccr &&& ~~~0xF) ||| 0x2, mbCause := s.dptccr.extractLsb' 2 2
                   mbPending := true }) ∧
  (∀ (s : State) (rest : List Input), RegsOk s → irqLine s.dptccr = true → s.irqOff = false →
    s.env.inputs = .irq :: rest →
    ∃ t, step s = .next t ∧ irqLine t.dptccr = false ∧
      t = { s with dptccr := (s.dptccr &&& ~~~0xF) ||| 0x2, mbCause := s.dptccr.extractLsb' 2 2
                   mbPending := true, env := { s.env with inputs := rest } }) ∧
  (∀ (s : State) (rest : List Input), irqLine s.dptccr = false → s.env.inputs = .irq :: rest →
    step s = .next (withInputs s rest)) ∧
  (∀ (s : State) (rest : List Input), s.irqOff = true → (s.env.inputs = .irq :: rest ∨ s.env.inputs = .rx :: rest) →
    step s = .next (withInputs s rest))

/-- R234, R235, R237: a whole reaction on a variant without SDMA: cause 1 moves one point up the table, causes 2 and 3
one point down, clamped; the thresholds, voltage and log entry follow; the block is enabled and unmasked only if
DPTC is still active. The steps are those of RX's turns: a `.rx` turn, or the default turn where SEQ is idle, is one,
unless an enabled IRQ comes first (logs 6, 28).
The number of steps is the model's (logs 12, 13). -/
def Obligations.ReactionMovesTheWorkingPoint : Prop :=
  (∀ (s : State) (rest : List Input), s.irqEnabled = false →
    (s.env.inputs = .rx :: rest → step s = stepRx (withInputs s rest)) ∧
    (s.env.inputs = [] → s.seq = .idle → step s = stepRx s)) ∧
  ∀ (s : State) (t : Table) (w : Nat) (q : Quad) (vals : List Word),
    RegsOk s → s.irqOff = false → s.rx = .idle → s.mbPending = true → s.params.hasSdma = false →
    ((s.mbCause = 1 ∧ w = min (t.currWp + 1) (t.wpNum - 1)) ∨
      ((s.mbCause = 2 ∨ s.mbCause = 3) ∧ w = min (t.currWp - 1) (t.wpNum - 1))) →
    SetWpReady s t w q vals →
    rxTimes (setWpSteps s.params + if s.dptcActive then 5 else 3) s = .next { setWpDone s t w q vals with
      mbPending := false
      dptccr := if s.dptcActive then (s.dptccr &&& ~~~0x3) ||| 0x1 else s.dptccr }

/-- R234, R236, R237, R194: a whole reaction with SDMA: the selected point is applied again with its voltage and log
entry, no DCVR is written, VOLT_VALID is set, and the block is enabled and unmasked only if DPTC is still active.
That RX's turns are these steps is said by `ReactionMovesTheWorkingPoint`, for every variant.
The number of steps is the model's (logs 12, 13). -/
def Obligations.SdmaReactionReappliesTheSelectedPoint : Prop :=
  ∀ (s : State) (t : Table) (q : Quad) (vals : List Word),
    RegsOk s → s.irqOff = false → s.rx = .idle → s.mbPending = true → s.params.hasSdma = true →
    SetWpReady s t (min t.currWp (t.wpNum - 1)) q vals →
    rxTimes (setWpSteps s.params + if s.dptcActive then 6 else 4) s =
      .next { setWpDone s t (min t.currWp (t.wpNum - 1)) q vals with
        mbPending := false
        dptccr := if s.dptcActive then (s.dptccr &&& ~~~0x3) ||| 0x101 else s.dptccr ||| 0x100 }

/-! ### The table and the log -/

/-- R263, R265, R266: SET_TABLE installs the parsed table and clears `S.prev_wp`, in three steps, and changes nothing
else.
The number of steps is the model's (logs 12, 13). -/
def Obligations.SetTableInstallsTheParsedTable : Prop :=
  ∀ (s : State) (a : Args) (t : Table), AtStart s a → Unlocked s → s.suspended = false → a.a0.toNat ≤ 8192 →
    parse s.params (s.data.readBytes 0 a.a0.toNat) s.env.allocOk = .ok t →
    s.dptcActive = false → s.mbPending = false → s.rx = .idle →
    (s.params.hasSdma = true ∨ s.dvfsActive = false) →
    execTimes .setTable 3 s = .next { ended s 0 0 with table := some t, prevWp := 0 }

/-- R264, R267: a text of more than 8192 bytes is refused at once and one of 8192 is read; every failure (too large, a
parse error, no allocation, a table in use) leaves the table as it was and writes nothing else.
The number of steps is the model's (logs 12, 13). -/
def Obligations.FailedSetTableLeavesTheTable : Prop :=
  ∀ (s : State) (w : Word) (a : Args), s.seq = .run { word := w, args := a, todo := [.start] } → Unlocked s →
    s.suspended = false →
    (8192 < a.a0.toNat → exec .setTable s = .next (raised s 0x0F01)) ∧
    (a.a0.toNat ≤ 8192 → exec .setTable s = .next { s with
      seq := .run { word := w, args := a,
                    todo := parsedLines s.params (s.data.readBytes 0 a.a0.toNat) s.env.allocOk } }) ∧
    (a.a0.toNat ≤ 8192 → ∀ e, parse s.params (s.data.readBytes 0 a.a0.toNat) s.env.allocOk = .error e →
      (e = .parseError ∧ execTimes .setTable 2 s = .next (raised s 0x0E01)) ∨
      (e = .allocFailed ∧ execTimes .setTable 2 s = .next (raised s 0x1004))) ∧
    (a.a0.toNat ≤ 8192 → ∀ t, parse s.params (s.data.readBytes 0 a.a0.toNat) s.env.allocOk = .ok t →
      (s.dptcActive = true ∨ s.mbPending = true ∨ s.rx ≠ .idle ∨ (s.params.hasSdma = false ∧ s.dvfsActive = true)) →
      execTimes .setTable 2 s = .next (raised s 0x0C02))

/-- R269, R203: GET_TABLE writes the serialized table at DATA offset 0 and returns its length; every other byte and
everything else is unchanged; its two errors write nothing.
The number of steps is the model's (logs 12, 13). -/
def Obligations.GetTableWritesTheTextOnly : Prop :=
  ∀ (s : State) (a : Args), AtStart s a → Unlocked s → s.data.wf = true →
    (s.table = none → exec .getTable s = .next (raised s 0x1502)) ∧
    (∀ t, s.table = some t → 8192 < (serialize s.params t).length → exec .getTable s = .next (raised s 0x1104)) ∧
    (∀ t, s.table = some t → (serialize s.params t).length ≤ 8192 →
      ∃ m : Memory, execTimes .getTable 2 s =
          .next { ended s (BitVec.ofNat 32 (serialize s.params t).length) 0 with data := m } ∧
        ∀ x, m.read x = if h : x < (serialize s.params t).length then (serialize s.params t)[x] else s.data.read x)

/-- R259, R261, R262, R46: a parsed table has the shape of the variant and working point 0; without allocation no text
gives a table; with it no text gives AllocFailed. -/
def Obligations.ParseGivesShapedTablesOrTheTwoErrors : Prop :=
  ∀ (p : Params) (text : List Byte),
    (∀ ok t, parse p text ok = .ok t → tableOk p t = true ∧ t.currWp = 0 ∧ ok = true) ∧
    (∀ ok e, parse p text ok = .error e → e = .parseError ∨ (e = .allocFailed ∧ ok = false)) ∧
    (parse p text false = .error .parseError → parse p text true = .error .parseError)

/-- R270, R268, R254 to R257, R259: the text of every table of the variant's shape with working point 0 is accepted
and parses back to that table; the tables that parse returns are among them. -/
def Obligations.SerializedTablesParseBack : Prop :=
  (∀ (p : Params) (t : Table), tableOk p t = true → t.currWp = 0 → parse p (serialize p t) true = .ok t) ∧
  (∀ (p : Params) (text : List Byte) (ok : Bool) (t : Table), parse p text ok = .ok t →
    parse p (serialize p t) true = .ok t)

/-- R302, R303: LOG_READ writes the oldest records, oldest first, 16 bytes each, and removes them; it returns how
many; every byte above them and everything else is unchanged.
The number of steps is the model's (logs 12, 13). -/
def Obligations.LogReadDrainsTheOldestRecords : Prop :=
  ∀ (s : State) (a : Args), AtStart s a → Unlocked s → s.suspended = false → LogOk s → s.data.wf = true →
    let cap := s.params.logCapacity
    let n := min a.a0.toNat (min ((s.log.head + cap - s.log.tail) % cap) 512)
    ∃ m : Memory, execTimes .logRead 2 s = .next { ended s (BitVec.ofNat 32 n) 0 with
        data := m
        log := { s.log with tail := (s.log.tail + n) % cap } } ∧
      (∀ i e, i < n → s.log.buf[(s.log.tail + i) % cap]? = some (some e) →
        m.readBytes (16 * i) 16 = wordBytes e.timestamp ++ wordBytes e.workingPoint ++ wordBytes e.voltage ++
          wordBytes e.frequencyIndex) ∧
      (∀ x, 16 * n ≤ x → m.read x = s.data.read x)

/-- R300, R305, R49: after any number of inserts into an empty ring it holds the newest ones, at most `cap - 1`, the
oldest at tail. -/
def Obligations.LogKeepsTheNewestEntries : Prop :=
  ∀ (cap : Nat) (es : List LogEntry), 2 ≤ cap →
    let l := es.foldl (logPush cap) (emptyLog cap)
    logCount cap l = min es.length (cap - 1) ∧
    logOldest cap l (logCount cap l) = es.drop (es.length - min es.length (cap - 1))

/-- R292, R293: SYS_SUSPEND and SYS_RESUME write `S.suspended` in one step, whatever it was, and nothing else. -/
def Obligations.SuspendAndResumeWriteTheFlagOnly : Prop :=
  ∀ (s : State) (a : Args), AtStart s a → Unlocked s →
    exec .sysSuspend s = .next { ended s 0 0 with suspended := true } ∧
    exec .sysResume s = .next { ended s 0 0 with suspended := false }

/-! ### Reset and what every step keeps -/

/-- R350 to R355: the state after reset, field by field, for any parameters and any world outside; and a reset turn,
at any moment, gives the reset state of the parameters in the world as it stands (log 26). The values of DCVR0 to DCVR3, of an
unwritten DATA byte and of the world are the model's (logs 3, 4, 6) and are not stated here. -/
def Obligations.ResetLeavesTheStatedValues : Prop :=
  (∀ (p : Params) (e : Env),
    let s := State.resetIn p e
    s.div = p.resetDiv &&& (if p.capRelock then 0x1FF else 0x0FF) ∧ s.mpll = p.resetMpll &&& 0x3FFF7FFF ∧
    s.tpll = (if p.capRelock then p.resetTpll &&& 0x3FFF7FFF else 0) ∧
    s.pllsr = (0x1 ||| (if p.capRelock ∧ p.resetTpllLock then 0x2 else 0) ||| (if s.div.getLsbD 8 then 0x8 else 0)) ∧
    s.lpmcr = 0 ∧ s.inten = 1 ∧ s.dptccr = (if p.hasSdma then 0x102 else 0x002) ∧ s.dvfscr = 0 ∧
    s.args = ⟨0, 0, 0, 0⟩ ∧ s.result = 0 ∧ s.rval0 = 0 ∧ s.rval1 = 0 ∧ s.psr = 0 ∧
    s.dptcActive = false ∧ s.dvfsActive = false ∧ s.suspended = false ∧ s.rcState = p.rcStateInit ∧
    s.currentFreqIndex = 0 ∧ s.prevWp = 0 ∧ s.mbPending = false ∧ s.mbCause = 0 ∧ s.regLock = .free ∧
    s.dvfsLock = .free ∧ s.logMutex = .free ∧ s.irqOff = false ∧ s.seq = .idle ∧ s.rx = .idle ∧
    (∀ t, parse p p.defaultTableText e.allocOk = .ok t → s.table = some t) ∧
    (∀ r, parse p p.defaultTableText e.allocOk = .error r → s.table = none) ∧
    (2 ≤ p.logCapacity → s.log.head = 1 % p.logCapacity ∧ s.log.tail = 0 ∧
      ∃ v, s.log.buf[0]? = some (some ⟨BitVec.ofNat 32 e.now, 0, v, 0⟩) ∧
        (∀ t vals, s.table = some t → t.wp[0]? = some vals → v = logVoltage p.logVoltageFn vals) ∧
        (s.table = none → v = 0))) ∧
  (∀ (s : State) (rest : List Input), s.env.inputs = .reset :: rest →
    step s = .next (State.resetIn s.params { s.env with inputs := rest }))

/-- R356, R47, R48: the invariants below hold right after reset, for every parameter set that meets the boot
requirements and in every world outside, a failing allocation included; and the set of `State.reset` meets them. -/
def Obligations.ResetMeetsTheInvariants : Prop :=
  paramsA.bootOk ∧ State.reset = State.resetIn paramsA Env.quiet ∧
  ∀ (p : Params) (e : Env), p.bootOk →
    RegsOk (State.resetIn p e) ∧ LogOk (State.resetIn p e) ∧ BusyOk (State.resetIn p e) ∧
    LocksOk (State.resetIn p e) ∧ TableInv (State.resetIn p e) ∧ (State.resetIn p e).data.wf = true

/-- R38, R23 to R43, R33: every step keeps reserved bits 0 in every register, and CAUSE 0 while the block is
disabled. -/
def Obligations.EveryStepKeepsReservedBitsZero : Prop :=
  ∀ s t : State, RegsOk s → step s = .next t → RegsOk t

/-- R43, R51, R80, R83: every step keeps BUSY equal to SEQ running a command, the short locks free, and dvfs_lock
free or held by a running SEQ. -/
def Obligations.EveryStepKeepsBusyAndTheLocks : Prop :=
  ∀ s t : State, BusyOk s → LocksOk s → step s = .next t → BusyOk t ∧ LocksOk t

/-- R47: every step, of any agent in any interleaving, keeps the table invariants. -/
def Obligations.EveryStepKeepsTheTableInvariants : Prop :=
  ∀ s t : State, 1 ≤ s.params.nFreqStates → TableInv s → step s = .next t → TableInv t

/-- R325, R198, R190, R356: in a state with the table invariants no step faults on a threshold or a working point out of
range, nor, where FREQ_INDEX_OF meets its boot requirement, on a frequency index out of range. -/
def Obligations.TableInvariantsExcludeRangeFaults : Prop :=
  ∀ s : State, TableInv s → step s ≠ .fault .thresholdsOutOfRange ∧ step s ≠ .fault .wpOutOfRange ∧
    (s.params.indexOk → step s ≠ .fault .freqIndexOutOfRange)

/-- R48, R44, R53: every step keeps the log ring's slots and its indices in range, the DATA window in its canonical
form, and the parameters. -/
def Obligations.EveryStepKeepsTheLogTheWindowAndTheParameters : Prop :=
  ∀ s t : State, step s = .next t →
    (LogOk s → LogOk t) ∧ (s.data.wf = true → t.data.wf = true) ∧ t.params = s.params

/-! ### Writes of the two registers with mixed fields, and a stuck HOST -/

/-- R32, R33, R35, R43: a write of DPTCCR by a HOST that is not stuck stores DPTC_EN, DPTC_MASK and RCEN, keeps CAUSE
unless DPTC_EN becomes 0, and sets VOLT_VALID by a 1 (HAS_SDMA only); a write of PSR clears OVR by a 1 and leaves BUSY.
Nothing else changes, and a read gives the register. -/
def Obligations.DptccrAndPsrWritesActFieldByField : Prop :=
  ∀ (s : State) (rest : List Input) (v : Word), s.env.hostStuck = false →
    (s.env.inputs = .host (.write (s.params.pcsBase + 0x020) 4 v) :: rest →
      ∃ w : Word, step s = .next { s with dptccr := w, env := { s.env with inputs := rest } } ∧
        w.extractLsb' 0 2 = v.extractLsb' 0 2 ∧
        w.extractLsb' 2 2 = (if v.getLsbD 0 then s.dptccr.extractLsb' 2 2 else 0) ∧
        w.extractLsb' 4 4 = v.extractLsb' 4 4 ∧
        w.getLsbD 8 = (s.params.hasSdma && (s.dptccr.getLsbD 8 || v.getLsbD 8)) ∧ w.extractLsb' 9 23 = 0) ∧
    (s.env.inputs = .host (.write (s.params.pcsBase + 0x120) 4 v) :: rest →
      step s = .next { s with psr := if v.getLsbD 1 then s.psr &&& ~~~0x2 else s.psr
                              env := { s.env with inputs := rest } }) ∧
    (s.env.inputs = .host (.read (s.params.pcsBase + 0x020) 4) :: rest →
      step s = .next { s with env := { s.env with inputs := rest, hostData := s.dptccr } }) ∧
    (s.env.inputs = .host (.read (s.params.pcsBase + 0x120) 4) :: rest →
      step s = .next { s with env := { s.env with inputs := rest, hostData := s.psr } })

/-- R15, R72, R152, R324: a stuck HOST holds up nobody: the turn of every other agent comes out the same whether the
HOST is stuck or not. No turn of the HOST stops the machine, moves a reaction or cancels a running command. The turns
of the others include reset, which leaves a stuck HOST stuck: that is the model's reading (logs 15, 26). -/
def Obligations.StuckHostHoldsUpNoOtherAgent : Prop :=
  (∀ (s : State) (b : Bool), (∀ a rest, s.env.inputs ≠ .host a :: rest) →
    step { s with env := { s.env with hostStuck := b } } =
      match step s with
      | .next t => .next { t with env := { t.env with hostStuck := b } }
      | .fault f => .fault f
      | .refused r => .refused r) ∧
  (∀ (s : State) (a : HostAccess) (rest : List Input), s.env.inputs = .host a :: rest →
    ∃ t, step s = .next t ∧ t.rx = s.rx ∧ (psrBusy s.psr = true → t.seq = s.seq))
end

