-- ==== Sys2Proof/Laws/Clock.lean ====
section
/-! SUPPORT. The clock model and the arithmetic of the DVFS controller: which faults and errors they can give, and
the ceilings of the dividers (41 R121, R122, R131 to R133, R136). -/

namespace Sys2Proof.Machine

theorem pllFormula_error_iff {f : Fault} {hz : Nat} {r : Word} :
    pllFormula hz r = .error f ↔ pllReserved r = true ∧ f = .pllFieldReserved := by
  unfold pllFormula
  split
  · rename_i h
    simp only [Except.error.injEq, h, true_and]
    exact eq_comm
  · dsimp only
    split <;> simp [*]

theorem brmmPoint_error {pll ahb k : Nat} {f : Fault} (h : brmmPoint pll ahb k = .error f) :
    f = .brmmReserved ∨ f = .brmmDivisorZero := by
  unfold brmmPoint at h
  split at h
  · cases h; exact .inl rfl
  · split at h <;> cases h
    exact .inr rfl

/-- A PLL's clock is the formula where CLOCK_MODEL is the reference definition. -/
@[simp] theorem pllHz_reference {p : Params} (h : p.clockModelFn = .reference) (turbo : Bool) (r : Word) :
    pllHz p turbo r = pllFormula p.refHz r := by
  simp only [pllHz, clockHz, h, clockReference, queryPllWord, clockOfPll]
  cases pllFormula p.refHz r <;> rfl

/-- The CPU clock is the BRMM point of the PLL's where CLOCK_MODEL is the reference definition. -/
theorem cpuHz_reference {p : Params} (h : p.clockModelFn = .reference) (turbo : Bool) (r d : Word) :
    cpuHz p turbo r d = cpuPoint p turbo r d := by
  simp only [cpuPoint, pllHz_reference h]
  simp only [cpuHz, clockHz, h, clockReference, queryPllWord, clockOfPll]

theorem clockFault_eq {q : ClockQuery} {f : Fault} (h : clockFault q = some f) :
    f = .pllFieldReserved ∨ f = .brmmReserved := by
  unfold clockFault at h
  split at h
  · cases h; exact .inl rfl
  · split at h
    · split at h <;> cases h
      exact .inr rfl
    · cases h

/-- A PLL's clock has no other reserved field than the register's. -/
@[simp] theorem clockFault_pll (turbo : Bool) (r : Word) :
    clockFault (.pll turbo r) = if pllReserved r then some .pllFieldReserved else none := rfl

/-- A PLL's clock faults exactly on the reserved fields, whatever CLOCK_MODEL is (60 R325). -/
theorem pllHz_error_iff {p : Params} {turbo : Bool} {r : Word} {f : Fault} :
    pllHz p turbo r = .error f ↔ pllReserved r = true ∧ f = .pllFieldReserved := by
  cases h : p.clockModelFn
  · rw [pllHz_reference h]; exact pllFormula_error_iff
  · simp only [pllHz, clockHz, h, clockFree, clockFault_pll]
    by_cases hr : pllReserved r = true
    · rw [if_pos hr]
      exact ⟨fun e => ⟨hr, (Except.error.inj e).symm⟩, fun e => by rw [e.2]⟩
    · rw [if_neg hr]
      exact ⟨fun e => (nomatch e), fun e => absurd e.1 hr⟩

theorem pllHz_error {p : Params} {turbo : Bool} {r : Word} {f : Fault} (h : pllHz p turbo r = .error f) :
    f = .pllFieldReserved := (pllHz_error_iff.1 h).2

theorem cpuPoint_error {p : Params} {turbo : Bool} {r d : Word} {f : Fault} (h : cpuPoint p turbo r d = .error f) :
    f = .pllFieldReserved ∨ f = .brmmReserved ∨ f = .brmmDivisorZero := by
  unfold cpuPoint at h
  split at h
  · cases h; exact .inl (pllHz_error ‹_›)
  · exact .inr (brmmPoint_error h)

theorem cpuHz_error {p : Params} {turbo : Bool} {r d : Word} {f : Fault} (h : cpuHz p turbo r d = .error f) :
    f = .pllFieldReserved ∨ f = .brmmReserved ∨ f = .brmmDivisorZero := by
  cases hm : p.clockModelFn
  · rw [cpuHz_reference hm] at h; exact cpuPoint_error h
  · simp only [cpuHz, clockHz, hm, clockFree] at h
    split at h
    · cases h
      rcases clockFault_eq ‹_› with h | h <;> simp [h]
    · cases h

theorem dividers_error {a b c : Nat} {f : Fault} (h : dividers a b c = .error f) : f = .dividerTargetBelowMhz := by
  unfold dividers at h
  split at h
  · cases h; rfl
  · split at h
    · cases h
    · split at h <;> cases h

theorem pllFields_error {p : Params} {q pdf mfd : Nat} {f : Fault} (h : pllFields p q pdf mfd = .error f) :
    f = .pllFieldReserved ∨ f = .zeroDivisor ∨ f = .mfiOverflow := by
  unfold pllFields at h
  split at h
  · cases h; simp
  · split at h
    · cases h; simp
    · split at h <;> cases h
      simp

theorem pllScale_error {p : Params} {turbo : Bool} {q : Nat} {r : Word} {f : Fault}
    (h : pllScale p turbo q r = .error f) :
    f = .pllFieldReserved ∨ f = .zeroDivisor ∨ f = .mfiOverflow := by
  unfold pllScale at h
  split at h
  · cases h; exact .inl (pllHz_error ‹_›)
  · cases h; exact pllFields_error ‹_›
  · split at h
    · cases h; exact .inl (pllHz_error ‹_›)
    · split at h
      · split at h
        · cases h; exact .inl (pllHz_error ‹_›)
        · cases h
      · cases h

/-- The error of a request check is one of the three of R123. -/
theorem validate_error {p : Params} {a : Args} {c : Bool} {e : Err} (h : validate p a c = some e) :
    e = .apiNotSupported ∨ e = .busFrequencyInvalid ∨ e = .invalidArmFrequency := by
  unfold validate at h
  split at h
  · cases h; simp
  · split at h
    · cases h; simp
    · split at h <;> cases h
      simp

/-- BRMM is one of the five points. -/
theorem nearestBrmm_le (q pll ahb : Nat) : nearestBrmm q pll ahb ≤ 4 := by
  have key : ∀ j k, j ≤ 4 → k ≤ 4 → brmmBetter q pll ahb j k ≤ 4 := by
    intro j k hj hk; unfold brmmBetter; split <;> assumption
  simp only [nearestBrmm, List.foldl]
  exact key _ _ (key _ _ (key _ _ (key _ _ (by omega) (by omega)) (by omega)) (by omega)) (by omega)

end Sys2Proof.Machine
end

