-- ==== Sys2Proof/Laws/State.lean ====
section
/-! SUPPORT. One lemma per field per named update of the state: which fields an update leaves as they were. -/

namespace Sys2Proof.Machine

/-! ### writeDiv -/

@[simp] theorem State.writeDiv_params (s : State) (v : Word) : (s.writeDiv v).params = s.params := by
  unfold State.writeDiv; split <;> rfl

@[simp] theorem State.writeDiv_mpll (s : State) (v : Word) : (s.writeDiv v).mpll = s.mpll := by
  unfold State.writeDiv; split <;> rfl

@[simp] theorem State.writeDiv_tpll (s : State) (v : Word) : (s.writeDiv v).tpll = s.tpll := by
  unfold State.writeDiv; split <;> rfl

@[simp] theorem State.writeDiv_lpmcr (s : State) (v : Word) : (s.writeDiv v).lpmcr = s.lpmcr := by
  unfold State.writeDiv; split <;> rfl

@[simp] theorem State.writeDiv_inten (s : State) (v : Word) : (s.writeDiv v).inten = s.inten := by
  unfold State.writeDiv; split <;> rfl

@[simp] theorem State.writeDiv_dptccr (s : State) (v : Word) : (s.writeDiv v).dptccr = s.dptccr := by
  unfold State.writeDiv; split <;> rfl

@[simp] theorem State.writeDiv_dcvr (s : State) (v : Word) : (s.writeDiv v).dcvr = s.dcvr := by
  unfold State.writeDiv; split <;> rfl

@[simp] theorem State.writeDiv_dvfscr (s : State) (v : Word) : (s.writeDiv v).dvfscr = s.dvfscr := by
  unfold State.writeDiv; split <;> rfl

@[simp] theorem State.writeDiv_args (s : State) (v : Word) : (s.writeDiv v).args = s.args := by
  unfold State.writeDiv; split <;> rfl

@[simp] theorem State.writeDiv_result (s : State) (v : Word) : (s.writeDiv v).result = s.result := by
  unfold State.writeDiv; split <;> rfl

@[simp] theorem State.writeDiv_rval0 (s : State) (v : Word) : (s.writeDiv v).rval0 = s.rval0 := by
  unfold State.writeDiv; split <;> rfl

@[simp] theorem State.writeDiv_rval1 (s : State) (v : Word) : (s.writeDiv v).rval1 = s.rval1 := by
  unfold State.writeDiv; split <;> rfl

@[simp] theorem State.writeDiv_psr (s : State) (v : Word) : (s.writeDiv v).psr = s.psr := by
  unfold State.writeDiv; split <;> rfl

@[simp] theorem State.writeDiv_data (s : State) (v : Word) : (s.writeDiv v).data = s.data := by
  unfold State.writeDiv; split <;> rfl

@[simp] theorem State.writeDiv_dptcActive (s : State) (v : Word) : (s.writeDiv v).dptcActive = s.dptcActive := by
  unfold State.writeDiv; split <;> rfl

@[simp] theorem State.writeDiv_dvfsActive (s : State) (v : Word) : (s.writeDiv v).dvfsActive = s.dvfsActive := by
  unfold State.writeDiv; split <;> rfl

@[simp] theorem State.writeDiv_suspended (s : State) (v : Word) : (s.writeDiv v).suspended = s.suspended := by
  unfold State.writeDiv; split <;> rfl

@[simp] theorem State.writeDiv_rcState (s : State) (v : Word) : (s.writeDiv v).rcState = s.rcState := by
  unfold State.writeDiv; split <;> rfl

@[simp] theorem State.writeDiv_currentFreqIndex (s : State) (v : Word) : (s.writeDiv v).currentFreqIndex = s.currentFreqIndex := by
  unfold State.writeDiv; split <;> rfl

@[simp] theorem State.writeDiv_prevWp (s : State) (v : Word) : (s.writeDiv v).prevWp = s.prevWp := by
  unfold State.writeDiv; split <;> rfl

@[simp] theorem State.writeDiv_table (s : State) (v : Word) : (s.writeDiv v).table = s.table := by
  unfold State.writeDiv; split <;> rfl

@[simp] theorem State.writeDiv_log (s : State) (v : Word) : (s.writeDiv v).log = s.log := by
  unfold State.writeDiv; split <;> rfl

@[simp] theorem State.writeDiv_mbPending (s : State) (v : Word) : (s.writeDiv v).mbPending = s.mbPending := by
  unfold State.writeDiv; split <;> rfl

@[simp] theorem State.writeDiv_mbCause (s : State) (v : Word) : (s.writeDiv v).mbCause = s.mbCause := by
  unfold State.writeDiv; split <;> rfl

@[simp] theorem State.writeDiv_regLock (s : State) (v : Word) : (s.writeDiv v).regLock = s.regLock := by
  unfold State.writeDiv; split <;> rfl

@[simp] theorem State.writeDiv_dvfsLock (s : State) (v : Word) : (s.writeDiv v).dvfsLock = s.dvfsLock := by
  unfold State.writeDiv; split <;> rfl

@[simp] theorem State.writeDiv_logMutex (s : State) (v : Word) : (s.writeDiv v).logMutex = s.logMutex := by
  unfold State.writeDiv; split <;> rfl

@[simp] theorem State.writeDiv_irqOff (s : State) (v : Word) : (s.writeDiv v).irqOff = s.irqOff := by
  unfold State.writeDiv; split <;> rfl

@[simp] theorem State.writeDiv_seq (s : State) (v : Word) : (s.writeDiv v).seq = s.seq := by
  unfold State.writeDiv; split <;> rfl

@[simp] theorem State.writeDiv_rx (s : State) (v : Word) : (s.writeDiv v).rx = s.rx := by
  unfold State.writeDiv; split <;> rfl

@[simp] theorem State.writeDiv_env (s : State) (v : Word) : (s.writeDiv v).env = s.env := by
  unfold State.writeDiv; split <;> rfl

@[simp] theorem State.writeDiv_div (s : State) (v : Word) : (s.writeDiv v).div = v &&& divMask s.params := by
  unfold State.writeDiv; split <;> rfl

/-! ### writeCsr -/

@[simp] theorem State.writeCsr_params (s : State) (r : Csr) (v : Word) : (s.writeCsr r v).params = s.params := by
  cases r <;> first | rfl | exact State.writeDiv_params s v

@[simp] theorem State.writeCsr_args (s : State) (r : Csr) (v : Word) : (s.writeCsr r v).args = s.args := by
  cases r <;> first | rfl | exact State.writeDiv_args s v

@[simp] theorem State.writeCsr_result (s : State) (r : Csr) (v : Word) : (s.writeCsr r v).result = s.result := by
  cases r <;> first | rfl | exact State.writeDiv_result s v

@[simp] theorem State.writeCsr_rval0 (s : State) (r : Csr) (v : Word) : (s.writeCsr r v).rval0 = s.rval0 := by
  cases r <;> first | rfl | exact State.writeDiv_rval0 s v

@[simp] theorem State.writeCsr_rval1 (s : State) (r : Csr) (v : Word) : (s.writeCsr r v).rval1 = s.rval1 := by
  cases r <;> first | rfl | exact State.writeDiv_rval1 s v

@[simp] theorem State.writeCsr_psr (s : State) (r : Csr) (v : Word) : (s.writeCsr r v).psr = s.psr := by
  cases r <;> first | rfl | exact State.writeDiv_psr s v

@[simp] theorem State.writeCsr_data (s : State) (r : Csr) (v : Word) : (s.writeCsr r v).data = s.data := by
  cases r <;> first | rfl | exact State.writeDiv_data s v

@[simp] theorem State.writeCsr_dptcActive (s : State) (r : Csr) (v : Word) : (s.writeCsr r v).dptcActive = s.dptcActive := by
  cases r <;> first | rfl | exact State.writeDiv_dptcActive s v

@[simp] theorem State.writeCsr_dvfsActive (s : State) (r : Csr) (v : Word) : (s.writeCsr r v).dvfsActive = s.dvfsActive := by
  cases r <;> first | rfl | exact State.writeDiv_dvfsActive s v

@[simp] theorem State.writeCsr_suspended (s : State) (r : Csr) (v : Word) : (s.writeCsr r v).suspended = s.suspended := by
  cases r <;> first | rfl | exact State.writeDiv_suspended s v

@[simp] theorem State.writeCsr_rcState (s : State) (r : Csr) (v : Word) : (s.writeCsr r v).rcState = s.rcState := by
  cases r <;> first | rfl | exact State.writeDiv_rcState s v

@[simp] theorem State.writeCsr_currentFreqIndex (s : State) (r : Csr) (v : Word) : (s.writeCsr r v).currentFreqIndex = s.currentFreqIndex := by
  cases r <;> first | rfl | exact State.writeDiv_currentFreqIndex s v

@[simp] theorem State.writeCsr_prevWp (s : State) (r : Csr) (v : Word) : (s.writeCsr r v).prevWp = s.prevWp := by
  cases r <;> first | rfl | exact State.writeDiv_prevWp s v

@[simp] theorem State.writeCsr_table (s : State) (r : Csr) (v : Word) : (s.writeCsr r v).table = s.table := by
  cases r <;> first | rfl | exact State.writeDiv_table s v

@[simp] theorem State.writeCsr_log (s : State) (r : Csr) (v : Word) : (s.writeCsr r v).log = s.log := by
  cases r <;> first | rfl | exact State.writeDiv_log s v

@[simp] theorem State.writeCsr_mbPending (s : State) (r : Csr) (v : Word) : (s.writeCsr r v).mbPending = s.mbPending := by
  cases r <;> first | rfl | exact State.writeDiv_mbPending s v

@[simp] theorem State.writeCsr_mbCause (s : State) (r : Csr) (v : Word) : (s.writeCsr r v).mbCause = s.mbCause := by
  cases r <;> first | rfl | exact State.writeDiv_mbCause s v

@[simp] theorem State.writeCsr_regLock (s : State) (r : Csr) (v : Word) : (s.writeCsr r v).regLock = s.regLock := by
  cases r <;> first | rfl | exact State.writeDiv_regLock s v

@[simp] theorem State.writeCsr_dvfsLock (s : State) (r : Csr) (v : Word) : (s.writeCsr r v).dvfsLock = s.dvfsLock := by
  cases r <;> first | rfl | exact State.writeDiv_dvfsLock s v

@[simp] theorem State.writeCsr_logMutex (s : State) (r : Csr) (v : Word) : (s.writeCsr r v).logMutex = s.logMutex := by
  cases r <;> first | rfl | exact State.writeDiv_logMutex s v

@[simp] theorem State.writeCsr_irqOff (s : State) (r : Csr) (v : Word) : (s.writeCsr r v).irqOff = s.irqOff := by
  cases r <;> first | rfl | exact State.writeDiv_irqOff s v

@[simp] theorem State.writeCsr_seq (s : State) (r : Csr) (v : Word) : (s.writeCsr r v).seq = s.seq := by
  cases r <;> first | rfl | exact State.writeDiv_seq s v

@[simp] theorem State.writeCsr_rx (s : State) (r : Csr) (v : Word) : (s.writeCsr r v).rx = s.rx := by
  cases r <;> first | rfl | exact State.writeDiv_rx s v

@[simp] theorem State.writeCsr_env (s : State) (r : Csr) (v : Word) : (s.writeCsr r v).env = s.env := by
  cases r <;> first | rfl | exact State.writeDiv_env s v

/-! ### modifyCsr -/

@[simp] theorem State.modifyCsr_params (s : State) (r : Csr) (m v : Word) : (s.modifyCsr r m v).params = s.params :=
  State.writeCsr_params s r _

@[simp] theorem State.modifyCsr_args (s : State) (r : Csr) (m v : Word) : (s.modifyCsr r m v).args = s.args :=
  State.writeCsr_args s r _

@[simp] theorem State.modifyCsr_result (s : State) (r : Csr) (m v : Word) : (s.modifyCsr r m v).result = s.result :=
  State.writeCsr_result s r _

@[simp] theorem State.modifyCsr_rval0 (s : State) (r : Csr) (m v : Word) : (s.modifyCsr r m v).rval0 = s.rval0 :=
  State.writeCsr_rval0 s r _

@[simp] theorem State.modifyCsr_rval1 (s : State) (r : Csr) (m v : Word) : (s.modifyCsr r m v).rval1 = s.rval1 :=
  State.writeCsr_rval1 s r _

@[simp] theorem State.modifyCsr_psr (s : State) (r : Csr) (m v : Word) : (s.modifyCsr r m v).psr = s.psr :=
  State.writeCsr_psr s r _

@[simp] theorem State.modifyCsr_data (s : State) (r : Csr) (m v : Word) : (s.modifyCsr r m v).data = s.data :=
  State.writeCsr_data s r _

@[simp] theorem State.modifyCsr_dptcActive (s : State) (r : Csr) (m v : Word) : (s.modifyCsr r m v).dptcActive = s.dptcActive :=
  State.writeCsr_dptcActive s r _

@[simp] theorem State.modifyCsr_dvfsActive (s : State) (r : Csr) (m v : Word) : (s.modifyCsr r m v).dvfsActive = s.dvfsActive :=
  State.writeCsr_dvfsActive s r _

@[simp] theorem State.modifyCsr_suspended (s : State) (r : Csr) (m v : Word) : (s.modifyCsr r m v).suspended = s.suspended :=
  State.writeCsr_suspended s r _

@[simp] theorem State.modifyCsr_rcState (s : State) (r : Csr) (m v : Word) : (s.modifyCsr r m v).rcState = s.rcState :=
  State.writeCsr_rcState s r _

@[simp] theorem State.modifyCsr_currentFreqIndex (s : State) (r : Csr) (m v : Word) : (s.modifyCsr r m v).currentFreqIndex = s.currentFreqIndex :=
  State.writeCsr_currentFreqIndex s r _

@[simp] theorem State.modifyCsr_prevWp (s : State) (r : Csr) (m v : Word) : (s.modifyCsr r m v).prevWp = s.prevWp :=
  State.writeCsr_prevWp s r _

@[simp] theorem State.modifyCsr_table (s : State) (r : Csr) (m v : Word) : (s.modifyCsr r m v).table = s.table :=
  State.writeCsr_table s r _

@[simp] theorem State.modifyCsr_log (s : State) (r : Csr) (m v : Word) : (s.modifyCsr r m v).log = s.log :=
  State.writeCsr_log s r _

@[simp] theorem State.modifyCsr_mbPending (s : State) (r : Csr) (m v : Word) : (s.modifyCsr r m v).mbPending = s.mbPending :=
  State.writeCsr_mbPending s r _

@[simp] theorem State.modifyCsr_mbCause (s : State) (r : Csr) (m v : Word) : (s.modifyCsr r m v).mbCause = s.mbCause :=
  State.writeCsr_mbCause s r _

@[simp] theorem State.modifyCsr_regLock (s : State) (r : Csr) (m v : Word) : (s.modifyCsr r m v).regLock = s.regLock :=
  State.writeCsr_regLock s r _

@[simp] theorem State.modifyCsr_dvfsLock (s : State) (r : Csr) (m v : Word) : (s.modifyCsr r m v).dvfsLock = s.dvfsLock :=
  State.writeCsr_dvfsLock s r _

@[simp] theorem State.modifyCsr_logMutex (s : State) (r : Csr) (m v : Word) : (s.modifyCsr r m v).logMutex = s.logMutex :=
  State.writeCsr_logMutex s r _

@[simp] theorem State.modifyCsr_irqOff (s : State) (r : Csr) (m v : Word) : (s.modifyCsr r m v).irqOff = s.irqOff :=
  State.writeCsr_irqOff s r _

@[simp] theorem State.modifyCsr_seq (s : State) (r : Csr) (m v : Word) : (s.modifyCsr r m v).seq = s.seq :=
  State.writeCsr_seq s r _

@[simp] theorem State.modifyCsr_rx (s : State) (r : Csr) (m v : Word) : (s.modifyCsr r m v).rx = s.rx :=
  State.writeCsr_rx s r _

@[simp] theorem State.modifyCsr_env (s : State) (r : Csr) (m v : Word) : (s.modifyCsr r m v).env = s.env :=
  State.writeCsr_env s r _

/-! ### endCommand, finish and raiseErr -/

@[simp] theorem State.endCommand_params (s : State) : s.endCommand.params = s.params := rfl

@[simp] theorem State.endCommand_div (s : State) : s.endCommand.div = s.div := rfl

@[simp] theorem State.endCommand_mpll (s : State) : s.endCommand.mpll = s.mpll := rfl

@[simp] theorem State.endCommand_tpll (s : State) : s.endCommand.tpll = s.tpll := rfl

@[simp] theorem State.endCommand_pllsr (s : State) : s.endCommand.pllsr = s.pllsr := rfl

@[simp] theorem State.endCommand_lpmcr (s : State) : s.endCommand.lpmcr = s.lpmcr := rfl

@[simp] theorem State.endCommand_inten (s : State) : s.endCommand.inten = s.inten := rfl

@[simp] theorem State.endCommand_dptccr (s : State) : s.endCommand.dptccr = s.dptccr := rfl

@[simp] theorem State.endCommand_dcvr (s : State) : s.endCommand.dcvr = s.dcvr := rfl

@[simp] theorem State.endCommand_dvfscr (s : State) : s.endCommand.dvfscr = s.dvfscr := rfl

@[simp] theorem State.endCommand_args (s : State) : s.endCommand.args = s.args := rfl

@[simp] theorem State.endCommand_result (s : State) : s.endCommand.result = s.result := rfl

@[simp] theorem State.endCommand_rval0 (s : State) : s.endCommand.rval0 = s.rval0 := rfl

@[simp] theorem State.endCommand_rval1 (s : State) : s.endCommand.rval1 = s.rval1 := rfl

@[simp] theorem State.endCommand_data (s : State) : s.endCommand.data = s.data := rfl

@[simp] theorem State.endCommand_dptcActive (s : State) : s.endCommand.dptcActive = s.dptcActive := rfl

@[simp] theorem State.endCommand_dvfsActive (s : State) : s.endCommand.dvfsActive = s.dvfsActive := rfl

@[simp] theorem State.endCommand_suspended (s : State) : s.endCommand.suspended = s.suspended := rfl

@[simp] theorem State.endCommand_rcState (s : State) : s.endCommand.rcState = s.rcState := rfl

@[simp] theorem State.endCommand_currentFreqIndex (s : State) : s.endCommand.currentFreqIndex = s.currentFreqIndex := rfl

@[simp] theorem State.endCommand_prevWp (s : State) : s.endCommand.prevWp = s.prevWp := rfl

@[simp] theorem State.endCommand_table (s : State) : s.endCommand.table = s.table := rfl

@[simp] theorem State.endCommand_log (s : State) : s.endCommand.log = s.log := rfl

@[simp] theorem State.endCommand_mbPending (s : State) : s.endCommand.mbPending = s.mbPending := rfl

@[simp] theorem State.endCommand_mbCause (s : State) : s.endCommand.mbCause = s.mbCause := rfl

@[simp] theorem State.endCommand_regLock (s : State) : s.endCommand.regLock = s.regLock := rfl

@[simp] theorem State.endCommand_logMutex (s : State) : s.endCommand.logMutex = s.logMutex := rfl

@[simp] theorem State.endCommand_rx (s : State) : s.endCommand.rx = s.rx := rfl

@[simp] theorem State.endCommand_pllTarget (s : State) : s.endCommand.pllTarget = s.pllTarget := rfl

@[simp] theorem State.endCommand_env (s : State) : s.endCommand.env = s.env := rfl

@[simp] theorem State.finish_params (s : State) (v0 v1 : Word) : (s.finish v0 v1).params = s.params := rfl

@[simp] theorem State.finish_div (s : State) (v0 v1 : Word) : (s.finish v0 v1).div = s.div := rfl

@[simp] theorem State.finish_mpll (s : State) (v0 v1 : Word) : (s.finish v0 v1).mpll = s.mpll := rfl

@[simp] theorem State.finish_tpll (s : State) (v0 v1 : Word) : (s.finish v0 v1).tpll = s.tpll := rfl

@[simp] theorem State.finish_pllsr (s : State) (v0 v1 : Word) : (s.finish v0 v1).pllsr = s.pllsr := rfl

@[simp] theorem State.finish_lpmcr (s : State) (v0 v1 : Word) : (s.finish v0 v1).lpmcr = s.lpmcr := rfl

@[simp] theorem State.finish_inten (s : State) (v0 v1 : Word) : (s.finish v0 v1).inten = s.inten := rfl

@[simp] theorem State.finish_dptccr (s : State) (v0 v1 : Word) : (s.finish v0 v1).dptccr = s.dptccr := rfl

@[simp] theorem State.finish_dcvr (s : State) (v0 v1 : Word) : (s.finish v0 v1).dcvr = s.dcvr := rfl

@[simp] theorem State.finish_dvfscr (s : State) (v0 v1 : Word) : (s.finish v0 v1).dvfscr = s.dvfscr := rfl

@[simp] theorem State.finish_args (s : State) (v0 v1 : Word) : (s.finish v0 v1).args = s.args := rfl

@[simp] theorem State.finish_data (s : State) (v0 v1 : Word) : (s.finish v0 v1).data = s.data := rfl

@[simp] theorem State.finish_dptcActive (s : State) (v0 v1 : Word) : (s.finish v0 v1).dptcActive = s.dptcActive := rfl

@[simp] theorem State.finish_dvfsActive (s : State) (v0 v1 : Word) : (s.finish v0 v1).dvfsActive = s.dvfsActive := rfl

@[simp] theorem State.finish_suspended (s : State) (v0 v1 : Word) : (s.finish v0 v1).suspended = s.suspended := rfl

@[simp] theorem State.finish_rcState (s : State) (v0 v1 : Word) : (s.finish v0 v1).rcState = s.rcState := rfl

@[simp] theorem State.finish_currentFreqIndex (s : State) (v0 v1 : Word) : (s.finish v0 v1).currentFreqIndex = s.currentFreqIndex := rfl

@[simp] theorem State.finish_prevWp (s : State) (v0 v1 : Word) : (s.finish v0 v1).prevWp = s.prevWp := rfl

@[simp] theorem State.finish_table (s : State) (v0 v1 : Word) : (s.finish v0 v1).table = s.table := rfl

@[simp] theorem State.finish_log (s : State) (v0 v1 : Word) : (s.finish v0 v1).log = s.log := rfl

@[simp] theorem State.finish_mbPending (s : State) (v0 v1 : Word) : (s.finish v0 v1).mbPending = s.mbPending := rfl

@[simp] theorem State.finish_mbCause (s : State) (v0 v1 : Word) : (s.finish v0 v1).mbCause = s.mbCause := rfl

@[simp] theorem State.finish_regLock (s : State) (v0 v1 : Word) : (s.finish v0 v1).regLock = s.regLock := rfl

@[simp] theorem State.finish_logMutex (s : State) (v0 v1 : Word) : (s.finish v0 v1).logMutex = s.logMutex := rfl

@[simp] theorem State.finish_rx (s : State) (v0 v1 : Word) : (s.finish v0 v1).rx = s.rx := rfl

@[simp] theorem State.finish_pllTarget (s : State) (v0 v1 : Word) : (s.finish v0 v1).pllTarget = s.pllTarget := rfl

@[simp] theorem State.finish_env (s : State) (v0 v1 : Word) : (s.finish v0 v1).env = s.env := rfl

@[simp] theorem State.raiseErr_params (s : State) (e : Err) : (s.raiseErr e).params = s.params := rfl

@[simp] theorem State.raiseErr_div (s : State) (e : Err) : (s.raiseErr e).div = s.div := rfl

@[simp] theorem State.raiseErr_mpll (s : State) (e : Err) : (s.raiseErr e).mpll = s.mpll := rfl

@[simp] theorem State.raiseErr_tpll (s : State) (e : Err) : (s.raiseErr e).tpll = s.tpll := rfl

@[simp] theorem State.raiseErr_pllsr (s : State) (e : Err) : (s.raiseErr e).pllsr = s.pllsr := rfl

@[simp] theorem State.raiseErr_lpmcr (s : State) (e : Err) : (s.raiseErr e).lpmcr = s.lpmcr := rfl

@[simp] theorem State.raiseErr_inten (s : State) (e : Err) : (s.raiseErr e).inten = s.inten := rfl

@[simp] theorem State.raiseErr_dptccr (s : State) (e : Err) : (s.raiseErr e).dptccr = s.dptccr := rfl

@[simp] theorem State.raiseErr_dcvr (s : State) (e : Err) : (s.raiseErr e).dcvr = s.dcvr := rfl

@[simp] theorem State.raiseErr_dvfscr (s : State) (e : Err) : (s.raiseErr e).dvfscr = s.dvfscr := rfl

@[simp] theorem State.raiseErr_args (s : State) (e : Err) : (s.raiseErr e).args = s.args := rfl

@[simp] theorem State.raiseErr_rval0 (s : State) (e : Err) : (s.raiseErr e).rval0 = s.rval0 := rfl

@[simp] theorem State.raiseErr_rval1 (s : State) (e : Err) : (s.raiseErr e).rval1 = s.rval1 := rfl

@[simp] theorem State.raiseErr_data (s : State) (e : Err) : (s.raiseErr e).data = s.data := rfl

@[simp] theorem State.raiseErr_dptcActive (s : State) (e : Err) : (s.raiseErr e).dptcActive = s.dptcActive := rfl

@[simp] theorem State.raiseErr_dvfsActive (s : State) (e : Err) : (s.raiseErr e).dvfsActive = s.dvfsActive := rfl

@[simp] theorem State.raiseErr_suspended (s : State) (e : Err) : (s.raiseErr e).suspended = s.suspended := rfl

@[simp] theorem State.raiseErr_rcState (s : State) (e : Err) : (s.raiseErr e).rcState = s.rcState := rfl

@[simp] theorem State.raiseErr_currentFreqIndex (s : State) (e : Err) : (s.raiseErr e).currentFreqIndex = s.currentFreqIndex := rfl

@[simp] theorem State.raiseErr_prevWp (s : State) (e : Err) : (s.raiseErr e).prevWp = s.prevWp := rfl

@[simp] theorem State.raiseErr_table (s : State) (e : Err) : (s.raiseErr e).table = s.table := rfl

@[simp] theorem State.raiseErr_log (s : State) (e : Err) : (s.raiseErr e).log = s.log := rfl

@[simp] theorem State.raiseErr_mbPending (s : State) (e : Err) : (s.raiseErr e).mbPending = s.mbPending := rfl

@[simp] theorem State.raiseErr_mbCause (s : State) (e : Err) : (s.raiseErr e).mbCause = s.mbCause := rfl

@[simp] theorem State.raiseErr_regLock (s : State) (e : Err) : (s.raiseErr e).regLock = s.regLock := rfl

@[simp] theorem State.raiseErr_logMutex (s : State) (e : Err) : (s.raiseErr e).logMutex = s.logMutex := rfl

@[simp] theorem State.raiseErr_rx (s : State) (e : Err) : (s.raiseErr e).rx = s.rx := rfl

@[simp] theorem State.raiseErr_pllTarget (s : State) (e : Err) : (s.raiseErr e).pllTarget = s.pllTarget := rfl

@[simp] theorem State.raiseErr_env (s : State) (e : Err) : (s.raiseErr e).env = s.env := rfl

@[simp] theorem State.finish_result (s : State) (v0 v1 : Word) : (s.finish v0 v1).result = 0 := rfl

@[simp] theorem State.finish_rval0 (s : State) (v0 v1 : Word) : (s.finish v0 v1).rval0 = v0 := rfl

@[simp] theorem State.finish_rval1 (s : State) (v0 v1 : Word) : (s.finish v0 v1).rval1 = v1 := rfl

@[simp] theorem State.finish_seq (s : State) (v0 v1 : Word) : (s.finish v0 v1).seq = .idle := rfl

@[simp] theorem State.finish_psr (s : State) (v0 v1 : Word) : (s.finish v0 v1).psr = s.psr &&& ~~~0x1 := rfl

@[simp] theorem State.raiseErr_result (s : State) (e : Err) : (s.raiseErr e).result = e.result := rfl

@[simp] theorem State.raiseErr_seq (s : State) (e : Err) : (s.raiseErr e).seq = .idle := rfl

@[simp] theorem State.raiseErr_psr (s : State) (e : Err) : (s.raiseErr e).psr = s.psr &&& ~~~0x1 := rfl

/-! ### writeCmd -/

@[simp] theorem State.writeCmd_params (s : State) (c : Word) : (s.writeCmd c).params = s.params := by
  unfold State.writeCmd; split <;> rfl

@[simp] theorem State.writeCmd_div (s : State) (c : Word) : (s.writeCmd c).div = s.div := by
  unfold State.writeCmd; split <;> rfl

@[simp] theorem State.writeCmd_mpll (s : State) (c : Word) : (s.writeCmd c).mpll = s.mpll := by
  unfold State.writeCmd; split <;> rfl

@[simp] theorem State.writeCmd_tpll (s : State) (c : Word) : (s.writeCmd c).tpll = s.tpll := by
  unfold State.writeCmd; split <;> rfl

@[simp] theorem State.writeCmd_pllsr (s : State) (c : Word) : (s.writeCmd c).pllsr = s.pllsr := by
  unfold State.writeCmd; split <;> rfl

@[simp] theorem State.writeCmd_lpmcr (s : State) (c : Word) : (s.writeCmd c).lpmcr = s.lpmcr := by
  unfold State.writeCmd; split <;> rfl

@[simp] theorem State.writeCmd_inten (s : State) (c : Word) : (s.writeCmd c).inten = s.inten := by
  unfold State.writeCmd; split <;> rfl

@[simp] theorem State.writeCmd_dptccr (s : State) (c : Word) : (s.writeCmd c).dptccr = s.dptccr := by
  unfold State.writeCmd; split <;> rfl

@[simp] theorem State.writeCmd_dcvr (s : State) (c : Word) : (s.writeCmd c).dcvr = s.dcvr := by
  unfold State.writeCmd; split <;> rfl

@[simp] theorem State.writeCmd_dvfscr (s : State) (c : Word) : (s.writeCmd c).dvfscr = s.dvfscr := by
  unfold State.writeCmd; split <;> rfl

@[simp] theorem State.writeCmd_args (s : State) (c : Word) : (s.writeCmd c).args = s.args := by
  unfold State.writeCmd; split <;> rfl

@[simp] theorem State.writeCmd_data (s : State) (c : Word) : (s.writeCmd c).data = s.data := by
  unfold State.writeCmd; split <;> rfl

@[simp] theorem State.writeCmd_dptcActive (s : State) (c : Word) : (s.writeCmd c).dptcActive = s.dptcActive := by
  unfold State.writeCmd; split <;> rfl

@[simp] theorem State.writeCmd_dvfsActive (s : State) (c : Word) : (s.writeCmd c).dvfsActive = s.dvfsActive := by
  unfold State.writeCmd; split <;> rfl

@[simp] theorem State.writeCmd_suspended (s : State) (c : Word) : (s.writeCmd c).suspended = s.suspended := by
  unfold State.writeCmd; split <;> rfl

@[simp] theorem State.writeCmd_rcState (s : State) (c : Word) : (s.writeCmd c).rcState = s.rcState := by
  unfold State.writeCmd; split <;> rfl

@[simp] theorem State.writeCmd_currentFreqIndex (s : State) (c : Word) : (s.writeCmd c).currentFreqIndex = s.currentFreqIndex := by
  unfold State.writeCmd; split <;> rfl

@[simp] theorem State.writeCmd_prevWp (s : State) (c : Word) : (s.writeCmd c).prevWp = s.prevWp := by
  unfold State.writeCmd; split <;> rfl

@[simp] theorem State.writeCmd_table (s : State) (c : Word) : (s.writeCmd c).table = s.table := by
  unfold State.writeCmd; split <;> rfl

@[simp] theorem State.writeCmd_log (s : State) (c : Word) : (s.writeCmd c).log = s.log := by
  unfold State.writeCmd; split <;> rfl

@[simp] theorem State.writeCmd_mbPending (s : State) (c : Word) : (s.writeCmd c).mbPending = s.mbPending := by
  unfold State.writeCmd; split <;> rfl

@[simp] theorem State.writeCmd_mbCause (s : State) (c : Word) : (s.writeCmd c).mbCause = s.mbCause := by
  unfold State.writeCmd; split <;> rfl

@[simp] theorem State.writeCmd_regLock (s : State) (c : Word) : (s.writeCmd c).regLock = s.regLock := by
  unfold State.writeCmd; split <;> rfl

@[simp] theorem State.writeCmd_dvfsLock (s : State) (c : Word) : (s.writeCmd c).dvfsLock = s.dvfsLock := by
  unfold State.writeCmd; split <;> rfl

@[simp] theorem State.writeCmd_logMutex (s : State) (c : Word) : (s.writeCmd c).logMutex = s.logMutex := by
  unfold State.writeCmd; split <;> rfl

@[simp] theorem State.writeCmd_irqOff (s : State) (c : Word) : (s.writeCmd c).irqOff = s.irqOff := by
  unfold State.writeCmd; split <;> rfl

@[simp] theorem State.writeCmd_rx (s : State) (c : Word) : (s.writeCmd c).rx = s.rx := by
  unfold State.writeCmd; split <;> rfl

@[simp] theorem State.writeCmd_pllTarget (s : State) (c : Word) : (s.writeCmd c).pllTarget = s.pllTarget := by
  unfold State.writeCmd; split <;> rfl

@[simp] theorem State.writeCmd_env (s : State) (c : Word) : (s.writeCmd c).env = s.env := by
  unfold State.writeCmd; split <;> rfl

/-! ### irqHandler -/

@[simp] theorem State.irqHandler_params (s : State) : s.irqHandler.params = s.params := by
  unfold State.irqHandler; split <;> rfl

@[simp] theorem State.irqHandler_div (s : State) : s.irqHandler.div = s.div := by
  unfold State.irqHandler; split <;> rfl

@[simp] theorem State.irqHandler_mpll (s : State) : s.irqHandler.mpll = s.mpll := by
  unfold State.irqHandler; split <;> rfl

@[simp] theorem State.irqHandler_tpll (s : State) : s.irqHandler.tpll = s.tpll := by
  unfold State.irqHandler; split <;> rfl

@[simp] theorem State.irqHandler_pllsr (s : State) : s.irqHandler.pllsr = s.pllsr := by
  unfold State.irqHandler; split <;> rfl

@[simp] theorem State.irqHandler_lpmcr (s : State) : s.irqHandler.lpmcr = s.lpmcr := by
  unfold State.irqHandler; split <;> rfl

@[simp] theorem State.irqHandler_inten (s : State) : s.irqHandler.inten = s.inten := by
  unfold State.irqHandler; split <;> rfl

@[simp] theorem State.irqHandler_dcvr (s : State) : s.irqHandler.dcvr = s.dcvr := by
  unfold State.irqHandler; split <;> rfl

@[simp] theorem State.irqHandler_dvfscr (s : State) : s.irqHandler.dvfscr = s.dvfscr := by
  unfold State.irqHandler; split <;> rfl

@[simp] theorem State.irqHandler_args (s : State) : s.irqHandler.args = s.args := by
  unfold State.irqHandler; split <;> rfl

@[simp] theorem State.irqHandler_result (s : State) : s.irqHandler.result = s.result := by
  unfold State.irqHandler; split <;> rfl

@[simp] theorem State.irqHandler_rval0 (s : State) : s.irqHandler.rval0 = s.rval0 := by
  unfold State.irqHandler; split <;> rfl

@[simp] theorem State.irqHandler_rval1 (s : State) : s.irqHandler.rval1 = s.rval1 := by
  unfold State.irqHandler; split <;> rfl

@[simp] theorem State.irqHandler_psr (s : State) : s.irqHandler.psr = s.psr := by
  unfold State.irqHandler; split <;> rfl

@[simp] theorem State.irqHandler_data (s : State) : s.irqHandler.data = s.data := by
  unfold State.irqHandler; split <;> rfl

@[simp] theorem State.irqHandler_dptcActive (s : State) : s.irqHandler.dptcActive = s.dptcActive := by
  unfold State.irqHandler; split <;> rfl

@[simp] theorem State.irqHandler_dvfsActive (s : State) : s.irqHandler.dvfsActive = s.dvfsActive := by
  unfold State.irqHandler; split <;> rfl

@[simp] theorem State.irqHandler_suspended (s : State) : s.irqHandler.suspended = s.suspended := by
  unfold State.irqHandler; split <;> rfl

@[simp] theorem State.irqHandler_rcState (s : State) : s.irqHandler.rcState = s.rcState := by
  unfold State.irqHandler; split <;> rfl

@[simp] theorem State.irqHandler_currentFreqIndex (s : State) : s.irqHandler.currentFreqIndex = s.currentFreqIndex := by
  unfold State.irqHandler; split <;> rfl

@[simp] theorem State.irqHandler_prevWp (s : State) : s.irqHandler.prevWp = s.prevWp := by
  unfold State.irqHandler; split <;> rfl

@[simp] theorem State.irqHandler_table (s : State) : s.irqHandler.table = s.table := by
  unfold State.irqHandler; split <;> rfl

@[simp] theorem State.irqHandler_log (s : State) : s.irqHandler.log = s.log := by
  unfold State.irqHandler; split <;> rfl

@[simp] theorem State.irqHandler_regLock (s : State) : s.irqHandler.regLock = s.regLock := by
  unfold State.irqHandler; split <;> rfl

@[simp] theorem State.irqHandler_dvfsLock (s : State) : s.irqHandler.dvfsLock = s.dvfsLock := by
  unfold State.irqHandler; split <;> rfl

@[simp] theorem State.irqHandler_logMutex (s : State) : s.irqHandler.logMutex = s.logMutex := by
  unfold State.irqHandler; split <;> rfl

@[simp] theorem State.irqHandler_irqOff (s : State) : s.irqHandler.irqOff = s.irqOff := by
  unfold State.irqHandler; split <;> rfl

@[simp] theorem State.irqHandler_seq (s : State) : s.irqHandler.seq = s.seq := by
  unfold State.irqHandler; split <;> rfl

@[simp] theorem State.irqHandler_rx (s : State) : s.irqHandler.rx = s.rx := by
  unfold State.irqHandler; split <;> rfl

@[simp] theorem State.irqHandler_pllTarget (s : State) : s.irqHandler.pllTarget = s.pllTarget := by
  unfold State.irqHandler; split <;> rfl

@[simp] theorem State.irqHandler_env (s : State) : s.irqHandler.env = s.env := by
  unfold State.irqHandler; split <;> rfl

/-! ### startWord -/

@[simp] theorem State.startWord_params (s : State) (w : Word) : (s.startWord w).params = s.params := rfl

@[simp] theorem State.startWord_div (s : State) (w : Word) : (s.startWord w).div = s.div := rfl

@[simp] theorem State.startWord_mpll (s : State) (w : Word) : (s.startWord w).mpll = s.mpll := rfl

@[simp] theorem State.startWord_tpll (s : State) (w : Word) : (s.startWord w).tpll = s.tpll := rfl

@[simp] theorem State.startWord_pllsr (s : State) (w : Word) : (s.startWord w).pllsr = s.pllsr := rfl

@[simp] theorem State.startWord_lpmcr (s : State) (w : Word) : (s.startWord w).lpmcr = s.lpmcr := rfl

@[simp] theorem State.startWord_inten (s : State) (w : Word) : (s.startWord w).inten = s.inten := rfl

@[simp] theorem State.startWord_dcvr (s : State) (w : Word) : (s.startWord w).dcvr = s.dcvr := rfl

@[simp] theorem State.startWord_dvfscr (s : State) (w : Word) : (s.startWord w).dvfscr = s.dvfscr := rfl

@[simp] theorem State.startWord_args (s : State) (w : Word) : (s.startWord w).args = s.args := rfl

@[simp] theorem State.startWord_data (s : State) (w : Word) : (s.startWord w).data = s.data := rfl

@[simp] theorem State.startWord_dptcActive (s : State) (w : Word) : (s.startWord w).dptcActive = s.dptcActive := rfl

@[simp] theorem State.startWord_dvfsActive (s : State) (w : Word) : (s.startWord w).dvfsActive = s.dvfsActive := rfl

@[simp] theorem State.startWord_suspended (s : State) (w : Word) : (s.startWord w).suspended = s.suspended := rfl

@[simp] theorem State.startWord_rcState (s : State) (w : Word) : (s.startWord w).rcState = s.rcState := rfl

@[simp] theorem State.startWord_currentFreqIndex (s : State) (w : Word) : (s.startWord w).currentFreqIndex = s.currentFreqIndex := rfl

@[simp] theorem State.startWord_prevWp (s : State) (w : Word) : (s.startWord w).prevWp = s.prevWp := rfl

@[simp] theorem State.startWord_table (s : State) (w : Word) : (s.startWord w).table = s.table := rfl

@[simp] theorem State.startWord_log (s : State) (w : Word) : (s.startWord w).log = s.log := rfl

@[simp] theorem State.startWord_mbPending (s : State) (w : Word) : (s.startWord w).mbPending = s.mbPending := rfl

@[simp] theorem State.startWord_mbCause (s : State) (w : Word) : (s.startWord w).mbCause = s.mbCause := rfl

@[simp] theorem State.startWord_regLock (s : State) (w : Word) : (s.startWord w).regLock = s.regLock := rfl

@[simp] theorem State.startWord_dvfsLock (s : State) (w : Word) : (s.startWord w).dvfsLock = s.dvfsLock := rfl

@[simp] theorem State.startWord_logMutex (s : State) (w : Word) : (s.startWord w).logMutex = s.logMutex := rfl

@[simp] theorem State.startWord_irqOff (s : State) (w : Word) : (s.startWord w).irqOff = s.irqOff := rfl

@[simp] theorem State.startWord_rx (s : State) (w : Word) : (s.startWord w).rx = s.rx := rfl

@[simp] theorem State.startWord_pllTarget (s : State) (w : Word) : (s.startWord w).pllTarget = s.pllTarget := rfl

/-! ### the environment -/

@[simp] theorem Env.setPmic_probe (e : Env) (ch : PmicChannel) (v : Word) : (e.setPmic ch v).probe = e.probe := by
  cases ch <;> rfl

@[simp] theorem Env.setPmic_pmicStalled (e : Env) (ch : PmicChannel) (v : Word) : (e.setPmic ch v).pmicStalled = e.pmicStalled := by
  cases ch <;> rfl

@[simp] theorem Env.setPmic_allocOk (e : Env) (ch : PmicChannel) (v : Word) : (e.setPmic ch v).allocOk = e.allocOk := by
  cases ch <;> rfl

@[simp] theorem Env.setPmic_now (e : Env) (ch : PmicChannel) (v : Word) : (e.setPmic ch v).now = e.now := by
  cases ch <;> rfl

@[simp] theorem Env.setPmic_hostData (e : Env) (ch : PmicChannel) (v : Word) : (e.setPmic ch v).hostData = e.hostData := by
  cases ch <;> rfl

@[simp] theorem Env.setPmic_hostStuck (e : Env) (ch : PmicChannel) (v : Word) : (e.setPmic ch v).hostStuck = e.hostStuck := by
  cases ch <;> rfl

@[simp] theorem Env.setPmic_inputs (e : Env) (ch : PmicChannel) (v : Word) : (e.setPmic ch v).inputs = e.inputs := by
  cases ch <;> rfl

@[simp] theorem Env.pmic_setPmic_same (e : Env) (ch : PmicChannel) (v : Word) : (e.setPmic ch v).pmic ch = v := by
  cases ch <;> rfl

theorem Env.pmic_setPmic_other (e : Env) (ch ch' : PmicChannel) (v : Word) (h : ch' ≠ ch) :
    (e.setPmic ch v).pmic ch' = e.pmic ch' := by
  cases ch <;> cases ch' <;> first | rfl | exact absurd rfl h

/-! ### resetIn -/

@[simp] theorem State.resetIn_params (p : Params) (e : Env) : (State.resetIn p e).params = p := rfl

@[simp] theorem State.resetIn_env (p : Params) (e : Env) : (State.resetIn p e).env = e := rfl

@[simp] theorem State.resetIn_seq (p : Params) (e : Env) : (State.resetIn p e).seq = .idle := rfl

@[simp] theorem State.resetIn_rx (p : Params) (e : Env) : (State.resetIn p e).rx = .idle := rfl

@[simp] theorem State.resetIn_table (p : Params) (e : Env) : (State.resetIn p e).table = tableReset p e.allocOk := rfl

@[simp] theorem State.resetIn_data (p : Params) (e : Env) : (State.resetIn p e).data = [] := rfl

end Sys2Proof.Machine
end

