-- ==== Sys2Proof/Laws/Lines.lean ====
section
/-! SUPPORT. What each line of SEQ and RX can do, said once: every proof about a step takes these apart instead of
unfolding the line. -/

namespace Sys2Proof.Machine

/-! ### Lines of the shared procedures -/

/-- What a line of a shared procedure does where it is done: the state after it and the lines it calls. -/
inductive OpEffect (s : State) : Op → State → List Op → Prop
  | modify {r m v} : s.regLock = .free → OpEffect s (.modify r m v) (s.modifyCsr r m v) []
  | write {r v} : OpEffect s (.write r v) (s.writeCsr r v) []
  | rcEnable : s.regLock = .free →
      OpEffect s .rcEnable (s.modifyCsr .dptccr 0xF0 (s.rcState.setWidth 32 <<< 4)) []
  | setWpSdma {g t} : s.table = some t → s.params.hasSdma = true →
      OpEffect s (.setWp g) { s with prevWp := t.currWp }
        (.setCurrWp (clampWp t g) :: (voltageOps s.params (clampWp t g) ++ [.logInsert]))
  | setWpPlain {g t} : s.table = some t → s.params.hasSdma = false →
      OpEffect s (.setWp g) { s with table := some { t with currWp := clampWp t g } }
        (.thresholds (some (clampWp t g)) :: (voltageOps s.params (clampWp t g) ++ [.logInsert]))
  | setCurrWp {w t} : s.table = some t →
      OpEffect s (.setCurrWp w) { s with table := some { t with currWp := w } } []
  | thresholds {w t q} : s.table = some t → tableCell t s.currentFreqIndex (w.getD t.currWp) = some q →
      OpEffect s (.thresholds w) { s with dcvr := { s.dcvr with v0 := q.v0 } }
        [.write .dcvr1 q.v1, .write .dcvr2 q.v2, .write .dcvr3 q.v3]
  | pmicGet {ch w} : s.env.pmicStalled = false →
      OpEffect s (.pmicGet ch w) s [.pmicSet ch w (s.env.pmic ch)]
  | pmicSet {ch w c t vals} : s.env.pmicStalled = false → s.table = some t → t.wp[w]? = some vals →
      OpEffect s (.pmicSet ch w c)
        { s with env := s.env.setPmic ch (pmicMerge s.params.pmicMergeFn ch c vals) } []
  | logInsert {e} : s.logMutex = .free → s.logEntry = .ok e →
      OpEffect s .logInsert { s with log := logPush s.params.logCapacity s.log e } []

theorem Op.run_done_iff {o : Op} {s s' : State} {more : List Op} :
    o.run s = .done s' more ↔ OpEffect s o s' more := by
  constructor
  · intro h
    cases o <;> simp only [Op.run, runModify, runSetWp, runSetCurrWp, runThresholds, runPmicGet, runPmicSet,
      runLogInsert] at h
    case modify => split at h <;> cases h; exact .modify ‹_›
    case write => cases h; exact .write
    case rcEnable => split at h <;> cases h; exact .rcEnable ‹_›
    case setWp =>
      split at h
      · cases h
      · split at h <;> cases h
        · exact .setWpSdma ‹_› ‹_›
        · exact .setWpPlain ‹_› (by simp_all)
    case setCurrWp => split at h <;> cases h; exact .setCurrWp ‹_›
    case thresholds =>
      split at h
      · cases h
      · split at h <;> cases h; exact .thresholds ‹_› ‹_›
    case pmicGet => split at h <;> cases h; exact .pmicGet (by simp_all)
    case pmicSet =>
      split at h
      · cases h
      · split at h
        · cases h
        · split at h <;> cases h
          exact .pmicSet (by simp_all) ‹_› ‹_›
    case logInsert =>
      split at h
      · split at h <;> cases h; exact .logInsert ‹_› ‹_›
      · cases h
  · intro h
    cases h <;> simp_all [Op.run, runModify, runSetWp, runSetCurrWp, runThresholds, runPmicGet, runPmicSet,
      runLogInsert, State.writeCsr]

theorem Op.run_ne_ended (o : Op) (s s' : State) : o.run s ≠ .ended s' := by
  intro h
  cases o <;> simp only [Op.run, runModify, runSetWp, runSetCurrWp, runThresholds, runPmicGet, runPmicSet,
    runLogInsert] at h <;> repeat' split at h
  all_goals cases h

/-! ### Lines of SEQ -/

/-- What a line of SEQ does where it is done. -/
inductive SeqEffect (s : State) (a : Args) : SeqLine → State → List SeqLine → Prop
  | op {o s' more} : OpEffect s o s' more → SeqEffect s a (.op o) s' (more.map .op)
  | acquire : s.dvfsLock = .free → SeqEffect s a .acquireDvfs { s with dvfsLock := .held .seq, irqOff := true } []
  | read {r k} : SeqEffect s a (.read r k) s (k.resume s.params a (s.readCsr r))
  | readClock {k} : s.regLock = .free →
      SeqEffect s a (.readClock k) s
        (k.resume s.params (pllsrCurPll s.pllsr) (s.readCsr (activePll s.pllsr)) s.div)
  | poll {b} : s.regLock = .free → b.sample s.pllsr = true → SeqEffect s a (.poll b) s []
  | dptcActive {b} : SeqEffect s a (.assign (.dptcActive b)) { s with dptcActive := b } []
  | dvfsActive {b} : SeqEffect s a (.assign (.dvfsActive b)) { s with dvfsActive := b } []
  | freqIndex {n} : SeqEffect s a (.assign (.freqIndex n)) { s with currentFreqIndex := n } []
  | freqIndexOf {hz t} : s.table = some t → freqIndexBy s.params.freqIndexFn hz t < t.dvfsStateNum →
      SeqEffect s a (.assign (.freqIndexOf hz)) { s with currentFreqIndex := freqIndexBy s.params.freqIndexFn hz t } []
  | rcOr {m} : SeqEffect s a (.assign (.rcOr m)) { s with rcState := s.rcState ||| m } []
  | rcAndNot {m} : SeqEffect s a (.assign (.rcAndNot m)) { s with rcState := s.rcState &&& ~~~m } []
  | bracket {mode} : SeqEffect s a (.lpmBracket mode) { s with irqOff := true } (lpmLines mode s.irqOff)
  | restore {b} : SeqEffect s a (.restoreIrq b) { s with irqOff := b } []
  | readText {n} : SeqEffect s a (.readText n) s (parsedLines s.params (s.data.readBytes 0 n) s.env.allocOk)
  | swap {t} : s.tableBusy = false → SeqEffect s a (.swap t) { s with table := some t, prevWp := 0 } []
  | memWrite {bs} : SeqEffect s a (.memWrite bs) { s with data := s.data.writeBytes 0 bs } []
  | drain {n} : s.logMutex = .free →
      SeqEffect s a (.drainLog n)
        { s with data := s.data.writeBytes 0
                   ((logOldest s.params.logCapacity s.log (s.drainCount n)).map logRecord).flatten
                 log := logDrop s.params.logCapacity s.log (s.drainCount n) }
        [.ret (BitVec.ofNat 32 (s.drainCount n)) 0]

/-- What a line of SEQ that ends the command leaves. -/
inductive SeqEnd (s : State) : SeqLine → State → Prop
  | busy {t} : s.tableBusy = true → SeqEnd s (.swap t) (s.raiseErr .notWhileActive)
  | suspended {b} : SeqEnd s (.setSuspended b) ({ s with suspended := b }.finish 0 0)
  | ret {v0 v1} : SeqEnd s (.ret v0 v1) (s.finish v0 v1)
  | retCurrWp {t} : s.table = some t → SeqEnd s .retCurrWp (s.finish (BitVec.ofNat 32 t.currWp) 0)
  | raised {e} : SeqEnd s (.raise e) (s.raiseErr e)

theorem SeqLine.run_done_iff {l : SeqLine} {a : Args} {s s' : State} {more : List SeqLine} :
    l.run a s = .done s' more ↔ SeqEffect s a l s' more := by
  constructor
  · intro h
    cases l <;> simp only [SeqLine.run, runAcquire, runReadClock, runPoll, runSwap, runDrain, runRetCurrWp] at h
    case op o =>
      cases ho : o.run s with
      | done u m => rw [ho] at h; cases h; exact .op (Op.run_done_iff.1 ho)
      | _ => rw [ho] at h; cases h
    case acquireDvfs => split at h <;> cases h; exact .acquire ‹_›
    case read => cases h; exact .read
    case readClock => split at h <;> cases h; exact .readClock ‹_›
    case poll => split at h <;> cases h; exact .poll (And.left ‹_›) (And.right ‹_›)
    case assign x =>
      cases x <;> simp only [Assign.run] at h
      case freqIndexOf hz =>
        split at h
        · cases h
        · split at h <;> cases h; exact .freqIndexOf ‹_› ‹_›
      all_goals cases h
      all_goals constructor
    case lpmBracket => cases h; exact .bracket
    case restoreIrq => cases h; exact .restore
    case readText => cases h; exact .readText
    case swap => split at h <;> cases h; exact .swap (by simp_all)
    case memWrite => cases h; exact .memWrite
    case drainLog => split at h <;> cases h; exact .drain ‹_›
    case retCurrWp => split at h <;> cases h
    all_goals cases h
  · intro h
    cases h
    case op ho => simp [SeqLine.run, Op.run_done_iff.2 ho, LineResult.ofOp]
    all_goals simp_all [SeqLine.run, runAcquire, runReadClock, runPoll, runSwap, runDrain, Assign.run]

theorem SeqLine.run_over_iff {l : SeqLine} {a : Args} {s s' : State} :
    l.run a s = .ended s' ↔ SeqEnd s l s' := by
  constructor
  · intro h
    cases l <;> simp only [SeqLine.run, runAcquire, runReadClock, runPoll, runSwap, runDrain, runRetCurrWp] at h
    case op o =>
      cases ho : o.run s with
      | ended u => exact absurd ho (Op.run_ne_ended o s u)
      | _ => rw [ho] at h; cases h
    case assign x =>
      cases x <;> simp only [Assign.run] at h <;> repeat' split at h
      all_goals cases h
    case acquireDvfs => split at h <;> cases h
    case readClock => split at h <;> cases h
    case poll => split at h <;> cases h
    case swap => split at h <;> cases h; exact .busy ‹_›
    case drainLog => split at h <;> cases h
    case retCurrWp => split at h <;> cases h; exact .retCurrWp ‹_›
    case setSuspended => cases h; exact .suspended
    case ret => cases h; exact .ret
    case raise => cases h; exact .raised
    all_goals cases h
  · intro h
    cases h <;> simp_all [SeqLine.run, runSwap, runRetCurrWp]

/-! ### Lines of RX -/

/-- What a line of RX does where it is done. -/
inductive RxEffect (s : State) : RxLine → State → List RxLine → Prop
  | op {o s' more} : OpEffect s o s' more → RxEffect s (.op o) s' (more.map .op)
  | rearm : RxEffect s .rearm s (rearmLines s.dptcActive)

theorem RxLine.run_done_iff {l : RxLine} {s s' : State} {more : List RxLine} :
    l.run s = .done s' more ↔ RxEffect s l s' more := by
  constructor
  · intro h
    cases l <;> simp only [RxLine.run] at h
    case op o =>
      cases ho : o.run s with
      | done u m => rw [ho] at h; cases h; exact .op (Op.run_done_iff.1 ho)
      | _ => rw [ho] at h; cases h
    all_goals cases h
    exact .rearm
  · intro h
    cases h
    case op ho => simp [RxLine.run, Op.run_done_iff.2 ho]
    case rearm => rfl

theorem RxLine.run_ended {l : RxLine} {s s' : State} (h : l.run s = .ended s') :
    l = .idle ∧ s' = { s with rx := .idle } := by
  cases l <;> simp only [RxLine.run] at h
  case op o =>
    cases ho : o.run s with
    | ended u => exact absurd ho (Op.run_ne_ended o s u)
    | _ => rw [ho] at h; cases h
  all_goals cases h
  exact ⟨rfl, rfl⟩

end Sys2Proof.Machine
end

