-- ==== Sys2Proof/Laws/Log.lean ====
section
/-! SUPPORT. The log ring: what an insert and a drain keep (10_state R48, R49; 46 R300, R302). -/

namespace Sys2Proof.Machine

/-- The ring has its slots and its indices are in range (10_state R48). -/
def ringOk (cap : Nat) (l : LogRing) : Prop := 0 < cap ∧ l.buf.length = cap ∧ l.head < cap ∧ l.tail < cap

theorem ringOk_empty {cap : Nat} (h : 0 < cap) : ringOk cap (emptyLog cap) := by
  simp [ringOk, emptyLog, h]

/-- An insert keeps the slots and the indices in range. -/
theorem ringOk_push {cap : Nat} {l : LogRing} (h : ringOk cap l) (e : LogEntry) : ringOk cap (logPush cap l e) := by
  obtain ⟨hc, hb, -, ht⟩ := h
  refine ⟨hc, by simp [logPush, hb], Nat.mod_lt _ hc, ?_⟩
  simp only [logPush]
  split
  · exact Nat.mod_lt _ hc
  · exact ht

/-- A drain keeps the slots and the indices in range. -/
theorem ringOk_drop {cap : Nat} {l : LogRing} (h : ringOk cap l) (n : Nat) : ringOk cap (logDrop cap l n) :=
  ⟨h.1, h.2.1, h.2.2.1, Nat.mod_lt _ h.1⟩

/-- The log after init has its slots and its indices in range (70 R354). -/
theorem ringOk_reset {p : Params} (h : 0 < p.logCapacity) (t : Option Table) (now : Nat) :
    ringOk p.logCapacity (logReset p t now) := ringOk_push (ringOk_empty h) _

/-- A ring never holds as many entries as it has slots (10_state R49). -/
theorem logCount_lt {cap : Nat} {l : LogRing} (h : ringOk cap l) : logCount cap l < cap := Nat.mod_lt _ h.1

/-- As many records are read as asked for. -/
@[simp] theorem length_logOldest (cap : Nat) (l : LogRing) (n : Nat) : (logOldest cap l n).length = n := by
  simp [logOldest]

/-- A record is 16 bytes (46 R303). -/
@[simp] theorem length_logRecord (e : LogEntry) : (logRecord e).length = 16 := rfl

/-- An insert stores at head. -/
theorem logSlot_push_head {cap : Nat} {l : LogRing} (h : ringOk cap l) (e : LogEntry) :
    logSlot (logPush cap l e) l.head = e := by
  have hh : l.head < l.buf.length := h.2.1 ▸ h.2.2.1
  simp [logSlot, logPush, hh]

/-- An insert leaves every other slot. -/
theorem logSlot_push_other {cap : Nat} {l : LogRing} {i : Nat} (e : LogEntry) (hi : i ≠ l.head) :
    logSlot (logPush cap l e) i = logSlot l i := by
  simp [logSlot, logPush, Ne.symm hi]

end Sys2Proof.Machine
end

