-- ==== Sys2Proof/Laws/Memory.lean ====
section
/-! SUPPORT. The DATA window: a byte read after a write, and the canonical form, which every operation keeps
(20_memory R73, 10_state R44). -/

namespace Sys2Proof.Machine

/-- What the canonical form says of a list that starts with a cell. -/
theorem Memory.wfFrom_cons {lo k : Nat} {v : Byte} {m : Memory} :
    Memory.wfFrom lo ((k, v) :: m) = true ↔
      lo ≤ k ∧ k < Memory.size ∧ v ≠ Memory.unlistedByte ∧ Memory.wfFrom (k + 1) m = true := by
  simp [Memory.wfFrom, and_assoc]

theorem Memory.wfFrom_mono {lo lo' : Nat} {m : Memory} (hlo : lo' ≤ lo) (h : Memory.wfFrom lo m = true) :
    Memory.wfFrom lo' m = true := by
  cases m with
  | nil => rfl
  | cons c m =>
    obtain ⟨h1, h2, h3, h4⟩ := Memory.wfFrom_cons.1 h
    exact Memory.wfFrom_cons.2 ⟨by omega, h2, h3, h4⟩

/-- A byte below every listed offset is the unlisted one. -/
theorem Memory.read_below {lo a : Nat} {m : Memory} (h : Memory.wfFrom lo m = true) (ha : a < lo) :
    m.read a = Memory.unlistedByte := by
  induction m generalizing lo with
  | nil => rfl
  | cons c m ih =>
    obtain ⟨h1, -, -, h4⟩ := Memory.wfFrom_cons.1 h
    have : a ≠ c.1 := by omega
    simpa [Memory.read, this] using ih h4 (by omega)

/-- One insert: the byte at its offset, every other byte as before. -/
theorem Memory.read_insert {lo : Nat} {m : Memory} (h : Memory.wfFrom lo m = true) (a : Nat) (b : Byte) (x : Nat) :
    (m.insert a b).read x = if x = a then b else m.read x := by
  induction m generalizing lo with
  | nil =>
    by_cases hb : b = Memory.unlistedByte <;> by_cases hx : x = a <;> simp [Memory.insert, Memory.read, hb, hx]
  | cons c m ih =>
    obtain ⟨k, v⟩ := c
    obtain ⟨-, -, -, h4⟩ := Memory.wfFrom_cons.1 h
    unfold Memory.insert
    split
    · split
      · by_cases hx : x = a
        · simp only [hx, Memory.read, if_true]
          rw [if_neg (by omega), Memory.read_below h4 (by omega)]
          exact Eq.symm ‹_›
        · simp [Memory.read, hx]
      · simp [Memory.read]
    · split
      · subst a
        split
        · by_cases hx : x = k
          · simp only [hx, if_true]
            rw [Memory.read_below h4 (Nat.lt_succ_self _)]
            exact Eq.symm ‹_›
          · simp [Memory.read, hx]
        · by_cases hx : x = k <;> simp [Memory.read, hx]
      · by_cases hx : x = k
        · simp [Memory.read, hx, show k ≠ a from fun e => by omega]
        · simpa [Memory.read, hx] using ih h4

/-- An insert inside the window keeps the canonical form. -/
theorem Memory.wfFrom_insert {lo a : Nat} {b : Byte} {m : Memory} (h : Memory.wfFrom lo m = true) (hlo : lo ≤ a)
    (ha : a < Memory.size) : Memory.wfFrom lo (m.insert a b) = true := by
  induction m generalizing lo with
  | nil =>
    by_cases hb : b = Memory.unlistedByte
    · simp [Memory.insert, hb, Memory.wfFrom]
    · simp [Memory.insert, hb, Memory.wfFrom, hlo, ha]
  | cons c m ih =>
    obtain ⟨k, v⟩ := c
    obtain ⟨h1, h2, h3, h4⟩ := Memory.wfFrom_cons.1 h
    unfold Memory.insert
    split
    · split
      · exact h
      · exact Memory.wfFrom_cons.2 ⟨hlo, ha, ‹_›, Memory.wfFrom_cons.2 ⟨by omega, h2, h3, h4⟩⟩
    · split
      · subst a
        split
        · exact Memory.wfFrom_mono (by omega) h4
        · exact Memory.wfFrom_cons.2 ⟨hlo, ha, ‹_›, h4⟩
      · exact Memory.wfFrom_cons.2 ⟨h1, h2, h3, ih h4 (by omega)⟩

/-- One store: the byte at its offset, every other byte as before; nothing outside the window. -/
theorem Memory.read_write {m : Memory} (h : m.wf = true) (a : Nat) (b : Byte) (x : Nat) :
    (m.write a b).read x = if x = a ∧ a < Memory.size then b else m.read x := by
  unfold Memory.write
  split
  · simpa [*] using Memory.read_insert h a b x
  · simp [*]

/-- A store keeps the canonical form. -/
theorem Memory.wf_write {m : Memory} (h : m.wf = true) (a : Nat) (b : Byte) : (m.write a b).wf = true := by
  unfold Memory.write
  split
  · exact Memory.wfFrom_insert h (Nat.zero_le _) ‹_›
  · exact h

/-- MemWrite keeps the canonical form. -/
theorem Memory.wf_writeBytes {m : Memory} (h : m.wf = true) (a : Nat) (bs : List Byte) :
    (m.writeBytes a bs).wf = true := by
  induction bs generalizing m a with
  | nil => exact h
  | cons b bs ih => exact ih (Memory.wf_write h a b) (a + 1)

/-- MemWrite inside the window: the bytes at their offsets, every other byte as before. -/
theorem Memory.read_writeBytes {m : Memory} (h : m.wf = true) (a : Nat) (bs : List Byte)
    (hs : a + bs.length ≤ Memory.size) (x : Nat) :
    (m.writeBytes a bs).read x = if hx : a ≤ x ∧ x < a + bs.length then bs[x - a] else m.read x := by
  induction bs generalizing m a with
  | nil => simp [Memory.writeBytes]
  | cons b bs ih =>
    have hs' : a + 1 + bs.length ≤ Memory.size := by simp only [List.length_cons] at hs; omega
    rw [Memory.writeBytes, ih (Memory.wf_write h a b) (a + 1) hs', Memory.read_write h]
    have ha : a < Memory.size := by omega
    by_cases hxa : x = a
    · subst hxa
      simp [ha]
    · by_cases hx : a + 1 ≤ x ∧ x < a + 1 + bs.length
      · have hx' : a ≤ x ∧ x < a + (b :: bs).length := by simp only [List.length_cons]; omega
        obtain ⟨n, rfl⟩ : ∃ n, x = a + 1 + n := ⟨x - (a + 1), by omega⟩
        rw [dif_pos hx, dif_pos hx']
        simp [show a + 1 + n - a = n + 1 by omega]
      · have hx' : ¬(a ≤ x ∧ x < a + (b :: bs).length) := by simp only [List.length_cons]; omega
        rw [dif_neg hx, dif_neg hx']
        simp [hxa]

/-- MemRead gives as many bytes as asked for. -/
@[simp] theorem Memory.length_readBytes (m : Memory) (a n : Nat) : (m.readBytes a n).length = n := by
  induction n generalizing a with
  | zero => rfl
  | succ n ih => simp [Memory.readBytes, ih]

/-- The bytes MemRead gives. -/
theorem Memory.getElem_readBytes (m : Memory) (a n i : Nat) (h : i < (m.readBytes a n).length) :
    (m.readBytes a n)[i] = m.read (a + i) := by
  induction n generalizing a i with
  | zero => simp [Memory.readBytes] at h
  | succ n ih =>
    cases i with
    | zero => rfl
    | succ i => simpa [Memory.readBytes, Nat.add_assoc, Nat.add_comm 1 i] using ih (a + 1) i (by simpa using h)

/-- Nothing is listed after reset (10_state R44). -/
theorem Memory.wf_nil : Memory.wf [] = true := rfl

end Sys2Proof.Machine
end

