-- ==== Sys2Proof/Laws/Ops.lean ====
section
/-! SUPPORT. The named operations: what the table's shape gives, and which fields a register write and an end of a
command leave (10_state R23 to R38, R47; 60 R320). -/

namespace Sys2Proof.Machine

/-! ### The table -/

/-- What the shape of a table says, clause by clause (10_state R46, R47). -/
theorem tableOk_iff {p : Params} {t : Table} :
    tableOk p t = true ↔ 1 ≤ t.wpNum ∧ t.wpNum ≤ 4294967295 ∧ t.currWp < t.wpNum ∧ t.wp.length = t.wpNum ∧
      (∀ v ∈ t.wp, v.length = p.wpValues) ∧ t.dvfsStateNum = p.nFreqStates ∧
      t.freq.length = (if p.hasFreqLines then p.nFreqStates else 0) ∧ t.dcvr.length = p.nFreqStates ∧
      ∀ row ∈ t.dcvr, row.length = t.wpNum := by
  simp [tableOk, and_assoc]

/-- The clamp gives a working point of the table (43 R192). -/
theorem clampWp_lt {p : Params} {t : Table} (h : tableOk p t = true) (g : WpTarget) : clampWp t g < t.wpNum := by
  have h1 := (tableOk_iff.1 h).1
  cases g <;> simp only [clampWp, clamp] <;> omega

/-- The shape does not depend on which point is current, as long as it is one. -/
theorem tableOk_setWp {p : Params} {t : Table} (h : tableOk p t = true) {w : Nat} (hw : w < t.wpNum) :
    tableOk p { t with currWp := w } = true := by
  rw [tableOk_iff] at h ⊢
  exact ⟨h.1, h.2.1, hw, h.2.2.2⟩

/-- Every cell of a table in range is there. -/
theorem tableCell_isSome {p : Params} {t : Table} (h : tableOk p t = true) {f w : Nat} (hf : f < p.nFreqStates)
    (hw : w < t.wpNum) : ∃ q, tableCell t f w = some q := by
  obtain ⟨-, -, -, -, -, hn, -, hd, hr⟩ := tableOk_iff.1 h
  have hlt : f < t.dcvr.length := by omega
  have hrow : t.dcvr[f].length = t.wpNum := hr _ (List.getElem_mem hlt)
  refine ⟨(t.dcvr[f])[w]'(by omega), ?_⟩
  have : f < t.dvfsStateNum := by omega
  simp [tableCell, this, hw, List.getElem?_eq_getElem hlt, hrow]

/-- Every working point of a table has its raw values. -/
theorem wp_isSome {p : Params} {t : Table} (h : tableOk p t = true) {w : Nat} (hw : w < t.wpNum) :
    ∃ vals, t.wp[w]? = some vals := by
  have hl := (tableOk_iff.1 h).2.2.2.1
  exact ⟨_, List.getElem?_eq_getElem (by omega)⟩

/-! ### Register writes -/

/-- A register write leaves everything that is no register (and `pllTarget`, which a write of DIV latches). -/
theorem writeCsr_frame (s : State) (r : Csr) (v : Word) :
    (s.writeCsr r v).params = s.params ∧ (s.writeCsr r v).data = s.data ∧ (s.writeCsr r v).table = s.table ∧
    (s.writeCsr r v).log = s.log ∧ (s.writeCsr r v).seq = s.seq ∧ (s.writeCsr r v).rx = s.rx ∧
    (s.writeCsr r v).psr = s.psr ∧ (s.writeCsr r v).result = s.result ∧ (s.writeCsr r v).rval0 = s.rval0 ∧
    (s.writeCsr r v).rval1 = s.rval1 ∧ (s.writeCsr r v).args = s.args ∧ (s.writeCsr r v).env = s.env ∧
    (s.writeCsr r v).regLock = s.regLock ∧ (s.writeCsr r v).dvfsLock = s.dvfsLock ∧
    (s.writeCsr r v).logMutex = s.logMutex ∧ (s.writeCsr r v).irqOff = s.irqOff ∧
    (s.writeCsr r v).dptcActive = s.dptcActive ∧ (s.writeCsr r v).dvfsActive = s.dvfsActive ∧
    (s.writeCsr r v).suspended = s.suspended ∧ (s.writeCsr r v).rcState = s.rcState ∧
    (s.writeCsr r v).currentFreqIndex = s.currentFreqIndex ∧ (s.writeCsr r v).prevWp = s.prevWp ∧
    (s.writeCsr r v).mbPending = s.mbPending ∧ (s.writeCsr r v).mbCause = s.mbCause := by
  cases r <;> simp only [State.writeCsr, State.writeDiv] <;> (try split) <;> simp

/-- DPTCCR after any write keeps to its bits. -/
theorem dptccrWrite_mask (p : Params) (old v : Word) : dptccrWrite p old v &&& ~~~(dptccrMask p) = 0 := by
  ext i hi
  rcases p with ⟨⟩
  simp only [dptccrWrite, dptccrMask]
  split <;> split <;> simp <;> interval_cases i <;> simp

/-- A write of DPTC_EN 0 clears CAUSE (10_state R33). -/
theorem dptccrWrite_disable {p : Params} {old v : Word} (h : v.getLsbD 0 = false) :
    dptcCause (dptccrWrite p old v) = 0 ∧ dptcEn (dptccrWrite p old v) = false := by
  have hb : bit v 0 = false := h
  constructor
  · simp only [dptccrWrite, dptcCause, hb]
    cases p.hasSdma <;> ext i hi <;> interval_cases i <;> simp
  · have h0 : v[0] = false := by simpa using h
    by_cases hS : p.hasSdma <;> simp [dptccrWrite, dptcEn, bit, h0, hS]

/-! ### The end of a command -/

/-- An end of a command leaves every register of the CSR, the table, the log and the window. -/
theorem endCommand_frame (s : State) :
    s.endCommand.params = s.params ∧ s.endCommand.div = s.div ∧ s.endCommand.mpll = s.mpll ∧
    s.endCommand.tpll = s.tpll ∧ s.endCommand.pllsr = s.pllsr ∧ s.endCommand.lpmcr = s.lpmcr ∧
    s.endCommand.inten = s.inten ∧ s.endCommand.dptccr = s.dptccr ∧ s.endCommand.dcvr = s.dcvr ∧
    s.endCommand.dvfscr = s.dvfscr ∧ s.endCommand.data = s.data ∧ s.endCommand.table = s.table ∧
    s.endCommand.log = s.log ∧ s.endCommand.seq = .idle ∧ s.endCommand.rx = s.rx :=
  ⟨rfl, rfl, rfl, rfl, rfl, rfl, rfl, rfl, rfl, rfl, rfl, rfl, rfl, rfl, rfl⟩

/-- The boot requirement on FREQ_INDEX_OF says that every index is one of a frequency state (70 R356 clause 4). -/
theorem Params.indexOk_iff {p : Params} :
    p.indexOk ↔ ∀ (hz : Nat) (t : Table), freqIndexBy p.freqIndexFn hz t < p.nFreqStates := by
  unfold Params.indexOk freqIndexBy
  cases p.freqIndexFn
  · exact ⟨fun h _ _ => h, fun h => h 0 default⟩
  · exact Iff.rfl

end Sys2Proof.Machine
end

