-- ==== Sys2Proof/Laws/PerInstr.lean ====
section
/-! SUPPORT. A statement made for every instruction on its own: the word of a command is a well-formed command word
(30_encoding R90 to R92). -/

namespace Sys2Proof.Laws

/-- The command's word has Z = 0 and its OP in the opcode map. -/
def WordOk.Statement (i : Instr) : Prop := commandWordOk (encode i) = true

theorem WordOk.dvfsReqFreq : WordOk.Statement .dvfsReqFreq := by unfold WordOk.Statement; decide
theorem WordOk.dvfsIntscale : WordOk.Statement .dvfsIntscale := by unfold WordOk.Statement; decide
theorem WordOk.dvfsPllscale : WordOk.Statement .dvfsPllscale := by unfold WordOk.Statement; decide
theorem WordOk.dvfsRelock : WordOk.Statement .dvfsRelock := by unfold WordOk.Statement; decide
theorem WordOk.dvfsEnable : WordOk.Statement .dvfsEnable := by unfold WordOk.Statement; decide
theorem WordOk.dvfsDisable : WordOk.Statement .dvfsDisable := by unfold WordOk.Statement; decide
theorem WordOk.dvfsGetState : WordOk.Statement .dvfsGetState := by unfold WordOk.Statement; decide
theorem WordOk.getCpuFreq : WordOk.Statement .getCpuFreq := by unfold WordOk.Statement; decide
theorem WordOk.lpmEnter : WordOk.Statement .lpmEnter := by unfold WordOk.Statement; decide
theorem WordOk.dptcEnable : WordOk.Statement .dptcEnable := by unfold WordOk.Statement; decide
theorem WordOk.dptcDisable : WordOk.Statement .dptcDisable := by unfold WordOk.Statement; decide
theorem WordOk.dptcEnableRc : WordOk.Statement .dptcEnableRc := by unfold WordOk.Statement; decide
theorem WordOk.dptcDisableRc : WordOk.Statement .dptcDisableRc := by unfold WordOk.Statement; decide
theorem WordOk.dptcGetState : WordOk.Statement .dptcGetState := by unfold WordOk.Statement; decide
theorem WordOk.dptcSetWp : WordOk.Statement .dptcSetWp := by unfold WordOk.Statement; decide
theorem WordOk.setFreqIndex : WordOk.Statement .setFreqIndex := by unfold WordOk.Statement; decide
theorem WordOk.setTable : WordOk.Statement .setTable := by unfold WordOk.Statement; decide
theorem WordOk.getTable : WordOk.Statement .getTable := by unfold WordOk.Statement; decide
theorem WordOk.logRead : WordOk.Statement .logRead := by unfold WordOk.Statement; decide
theorem WordOk.sysSuspend : WordOk.Statement .sysSuspend := by unfold WordOk.Statement; decide
theorem WordOk.sysResume : WordOk.Statement .sysResume := by unfold WordOk.Statement; decide

end Sys2Proof.Laws
end

