-- ==== Sys2Proof/Laws/Steps.lean ====
section
/-! SUPPORT. What one step of the machine can do, said once: `step_next` names every way a step answers a next
state. -/

namespace Sys2Proof.Machine

/-- The first lines of each command. -/
def planOf : Instr → State → Args → List SeqLine
  | .dvfsReqFreq => reqFreqPlan
  | .dvfsIntscale => intscalePlan
  | .dvfsPllscale => pllscalePlan
  | .dvfsRelock => relockPlan
  | .dvfsEnable => dvfsEnablePlan
  | .dvfsDisable => dvfsDisablePlan
  | .dvfsGetState => dvfsGetStatePlan
  | .getCpuFreq => getCpuFreqPlan
  | .lpmEnter => lpmEnterPlan
  | .dptcEnable => dptcEnablePlan
  | .dptcDisable => dptcDisablePlan
  | .dptcEnableRc => dptcEnableRcPlan
  | .dptcDisableRc => dptcDisableRcPlan
  | .dptcGetState => dptcGetStatePlan
  | .dptcSetWp => dptcSetWpPlan
  | .setFreqIndex => setFreqIndexPlan
  | .setTable => setTablePlan
  | .getTable => getTablePlan
  | .logRead => logReadPlan
  | .sysSuspend => sysSuspendPlan
  | .sysResume => sysResumePlan

/-- Every meaning is `runCommand` of its plan. -/
theorem exec_eq_runCommand (i : Instr) (s : State) : exec i s = runCommand (planOf i) s := by cases i <;> rfl

/-- The lines SEQ runs next in a command: its plan at the start, else the lines it still has. -/
def linesOf (i : Instr) (s : State) (job : Job) : List SeqLine :=
  match job.todo with
  | .start :: _ => planOf i s job.args
  | ls => ls

theorem exec_run {i : Instr} {s : State} {job : Job} (h : s.seq = .run job) :
    exec i s = s.takeLine { job with todo := linesOf i s job } := by
  rw [exec_eq_runCommand]
  simp only [runCommand, h, linesOf]
  split <;> simp_all

theorem takeLine_done {s s' : State} {job : Job} {l : SeqLine} {rest more : List SeqLine}
    (hj : job.todo = l :: rest) (h : l.run job.args s = .done s' more) :
    s.takeLine job = .next { s' with seq := .run { job with todo := more ++ rest } } := by
  simp [State.takeLine, hj, h]

theorem takeLine_ended {s s' : State} {job : Job} {l : SeqLine} {rest : List SeqLine}
    (hj : job.todo = l :: rest) (h : l.run job.args s = .ended s') : s.takeLine job = .next s' := by
  simp [State.takeLine, hj, h]

theorem takeLine_wait {s : State} {job : Job} {l : SeqLine} {rest : List SeqLine}
    (hj : job.todo = l :: rest) (h : l.run job.args s = .wait) : s.takeLine job = .next s := by
  simp [State.takeLine, hj, h]

theorem takeLine_fault {s : State} {job : Job} {l : SeqLine} {rest : List SeqLine} {f : Fault}
    (hj : job.todo = l :: rest) (h : l.run job.args s = .fault f) : s.takeLine job = .fault f := by
  simp [State.takeLine, hj, h]

/-- What a turn of SEQ can leave, `job` being the command and `todo` its lines. -/
inductive SeqTurn (s : State) (job : Job) (todo : List SeqLine) : State → Prop
  | still : SeqTurn s job todo s
  | line {l rest s' more} : todo = l :: rest → SeqEffect s job.args l s' more →
      SeqTurn s job todo { s' with seq := .run { job with todo := more ++ rest } }
  | last {l rest s'} : todo = l :: rest → SeqEnd s l s' → SeqTurn s job todo s'

theorem takeLine_next {s t : State} {job : Job} {todo : List SeqLine}
    (h : s.takeLine { job with todo := todo } = .next t) : SeqTurn s job todo t := by
  unfold State.takeLine at h
  split at h
  · cases h; exact .still
  · rename_i l rest hl
    simp only at hl
    split at h
    · cases h; exact .line hl (SeqLine.run_done_iff.1 ‹_›)
    · cases h; exact .still
    · cases h; exact .last hl (SeqLine.run_over_iff.1 ‹_›)
    · cases h

/-- What one step can do in `s`: whose turn it was, and the state it left. -/
inductive Turn (s : State) : State → Prop
  | still {ins} : Turn s (withInputs s ins)
  | irq {ins} : s.irqEnabled = true → Turn s (withInputs s ins).irqHandler
  | seq {ins job i t} : s.seq = .run job → decode job.word = .ok i →
      SeqTurn (withInputs s ins) job (linesOf i (withInputs s ins) job) t → Turn s t
  | unknown {ins job e} : s.seq = .run job → decode job.word = .error e →
      Turn s ((withInputs s ins).raiseErr .unknownCommand)
  | rxTake {ins} : s.irqOff = false → s.rx = .idle → s.mbPending = true →
      Turn s { withInputs s ins with mbPending := false, rx := .run (reactionLines s.params s.mbCause) }
  | rxLine {ins l rest s' more} : s.irqOff = false → s.rx = .run (l :: rest) →
      RxEffect (withInputs s ins) l s' more → Turn s { s' with rx := .run (more ++ rest) }
  | rxEnd {ins rest} : s.irqOff = false → s.rx = .run (.idle :: rest) → Turn s { withInputs s ins with rx := .idle }
  | hostRead {ins d} : Turn s { withInputs s ins with env := { s.env with inputs := ins, hostData := d } }
  | hostCsr {ins r v} : Turn s ((withInputs s ins).writeCsr r v)
  | hostPort {ins r v} : Turn s ((withInputs s ins).writePort r v)
  | hostData {ins off bs} : Turn s { withInputs s ins with data := s.data.writeBytes off bs }
  | pllLock {rest} : s.env.inputs = .pllLock :: rest → Turn s (envPllLock (withInputs s rest))
  | pllDone {rest} : s.env.inputs = .pllDone :: rest → Turn s (envPllDone (withInputs s rest))
  | dptcCause {c rest} : s.env.inputs = .dptcCause c :: rest → Turn s (envDptc c (withInputs s rest))
  | sdma {w c rest} : s.env.inputs = .sdma w c :: rest → Turn s (envSdma w c (withInputs s rest))
  | wake {rest} : s.env.inputs = .wake :: rest → Turn s (envWake (withInputs s rest))
  | world {e} : Turn s { s with env := e }
  | reset {rest} : s.env.inputs = .reset :: rest → Turn s (withInputs s rest).reboot

/-- A step with something to come is that input's. -/
theorem step_input {s : State} {i : Input} {rest : List Input} (h : s.env.inputs = i :: rest) :
    step s = stepInput i rest s := by simp [step, stepAny, h]

/-- A write of a HOST that is not stuck is a write of the offset. -/
theorem step_hostWrite {s : State} {off size : Nat} {v : Word} {rest : List Input}
    (hk : s.env.hostStuck = false) (h : s.env.inputs = .host (.write (s.params.pcsBase + off) size v) :: rest) :
    step s = hostWrite (withInputs s rest) off size v := by
  rw [step_input h]
  simp [stepInput, stepHost, hostAccess, Params.offsetOf, withInputs, hk]

/-- A read of a HOST that is not stuck is a read of the offset. -/
theorem step_hostRead {s : State} {off size : Nat} {rest : List Input}
    (hk : s.env.hostStuck = false) (h : s.env.inputs = .host (.read (s.params.pcsBase + off) size) :: rest) :
    step s = hostRead (withInputs s rest) off size := by
  rw [step_input h]
  simp [stepInput, stepHost, hostAccess, Params.offsetOf, withInputs, hk]

theorem withInputs_self (s : State) : withInputs s s.env.inputs = s := rfl

/-- A turn of SEQ. -/
theorem stepSeq_next {s t : State} {ins : List Input} (h : stepSeq (withInputs s ins) = .next t) : Turn s t := by
  unfold stepSeq at h
  split at h
  · cases h; exact .still
  · rename_i job hj
    split at h
    · rename_i i hd
      rw [exec_run hj] at h
      exact .seq (ins := ins) hj hd (takeLine_next h)
    · rename_i e hd
      cases h
      exact .unknown hj hd

/-- A turn of RX. -/
theorem stepRx_next {s t : State} {ins : List Input} (h : stepRx (withInputs s ins) = .next t) : Turn s t := by
  unfold stepRx at h
  split at h
  · cases h; exact .still
  · rename_i ho
    have ho' : s.irqOff = false := by simpa [withInputs] using ho
    split at h
    · rename_i hr
      split at h
      · cases h; exact .rxTake ho' hr ‹_›
      · cases h; exact .still
    · cases h; exact .still
    · rename_i l rest hr
      split at h
      · cases h; exact .rxLine ho' hr (RxLine.run_done_iff.1 ‹_›)
      · cases h; exact .still
      · rename_i s' hs
        obtain ⟨rfl, rfl⟩ := RxLine.run_ended hs
        cases h
        exact .rxEnd ho' hr
      · cases h

/-- A turn of the HOST. -/
theorem stepHost_next {s t : State} {ins : List Input} {a : HostAccess}
    (h : stepHost a (withInputs s ins) = .next t) : Turn s t := by
  unfold stepHost at h
  split at h
  · cases h; exact .still
  unfold hostAccess at h
  split at h
  · split at h
    · unfold hostRead at h
      split at h
      · split at h <;> cases h <;> exact .hostRead
      · cases h; exact .world
    · cases h; exact .world
  · split at h
    · rename_i v _ off _
      unfold hostWrite at h
      split at h
      · split at h
        · cases h
          unfold State.writeRegister
          split
          · exact .hostCsr
          · exact .hostPort
          · exact .still
        · cases h
          exact .hostData
      · cases h; exact .world
    · cases h; exact .world

/-- A turn of a stuck HOST changes nothing but the coming steps (00_scope R15). -/
theorem step_hostStuck {s : State} {a : HostAccess} {rest : List Input} (hk : s.env.hostStuck = true)
    (h : s.env.inputs = .host a :: rest) : step s = .next (withInputs s rest) := by
  rw [step_input h]
  simp [stepInput, stepHost, noStep, withInputs, hk]

/-- A turn of the HOST never stops the machine: it is stuck, or the access goes through (20_memory R72). -/
theorem stepHost_answers (a : HostAccess) (s : State) : ∃ t, stepHost a s = .next t := by
  unfold stepHost noStep hostAccess
  split
  · exact ⟨_, rfl⟩
  · split <;> split <;> simp only [hostRead, hostWrite, stuckHost] <;> repeat' split
    all_goals exact ⟨_, rfl⟩

/-- Every way a step answers a next state. -/
theorem step_next {s t : State} (h : step s = .next t) : Turn s t := by
  unfold step stepAny at h
  split at h
  · unfold stepDefault at h
    split at h
    · cases h; exact .irq (ins := s.env.inputs) ‹_›
    · split at h
      · exact stepSeq_next (ins := s.env.inputs) h
      · exact stepRx_next (ins := s.env.inputs) h
  · rename_i i rest hi
    unfold stepInput at h
    cases i <;> simp only at h
    case seq =>
      split at h
      · cases h; exact .irq (ins := s.env.inputs) ‹_›
      · exact stepSeq_next h
    case rx =>
      split at h
      · cases h; exact .irq (ins := s.env.inputs) ‹_›
      · exact stepRx_next h
    case irq =>
      split at h
      · cases h; exact .irq (ins := rest) ‹_›
      · cases h; exact .still
    case host => exact stepHost_next h
    case pllLock => cases h; exact .pllLock hi
    case pllDone => cases h; exact .pllDone hi
    case dptcCause => cases h; exact .dptcCause hi
    case sdma => cases h; exact .sdma hi
    case wake => cases h; exact .wake hi
    case reset => cases h; exact .reset hi
    all_goals cases h; exact .world

end Sys2Proof.Machine
end

