-- ==== Sys2Proof/Laws/Runs.lean ====
section
/-! SUPPORT. Runs of a command line by line: how `execTimes` and `rxTimes` unfold, what one line of a running
command leaves, and the ends of a command with no lock held (00_scope R14, 60 R320). -/

namespace Sys2Proof

open Machine

/-! ### Runs of a command -/

@[simp] theorem execTimes_zero (i : Instr) (s : State) : execTimes i 0 s = .next s := rfl

theorem execTimes_succ {i : Instr} {s u : State} (h : exec i s = .next u) (n : Nat) :
    execTimes i (n + 1) s = execTimes i n u := by simp [execTimes, h]

theorem execTimes_fault {i : Instr} {s : State} {f : Fault} (h : exec i s = .fault f) (n : Nat) :
    execTimes i (n + 1) s = .fault f := by simp [execTimes, h]

theorem execTimes_next_iff {i : Instr} {n : Nat} {s t : State} :
    execTimes i (n + 1) s = .next t ↔ ∃ u, exec i s = .next u ∧ execTimes i n u = .next t := by
  cases h : exec i s <;> simp [execTimes, h]

theorem execTimes_add {i : Instr} {m : Nat} {s u : State} (h : execTimes i m s = .next u) (n : Nat) :
    execTimes i (m + n) s = execTimes i n u := by
  induction m generalizing s with
  | zero => cases h; simp
  | succ m ih =>
    obtain ⟨v, hv, hu⟩ := execTimes_next_iff.1 h
    rw [Nat.succ_add, execTimes_succ hv, ih hu]

/-- The first step of a command whose first line is done. -/
theorem exec_start_done {i : Instr} {s s' : State} {w : Word} {a : Args} {l : SeqLine} {rest more : List SeqLine}
    (hs : s.seq = .run { word := w, args := a, todo := [.start] }) (hp : planOf i s a = l :: rest)
    (h : l.run a s = .done s' more) :
    exec i s = .next { s' with seq := .run { word := w, args := a, todo := more ++ rest } } := by
  rw [exec_run hs]
  exact takeLine_done (job := ⟨w, a, _⟩) (by simpa [linesOf] using hp) h

/-- The first step of a command that ends at once. -/
theorem exec_start_ended {i : Instr} {s s' : State} {w : Word} {a : Args} {l : SeqLine} {rest : List SeqLine}
    (hs : s.seq = .run { word := w, args := a, todo := [.start] }) (hp : planOf i s a = l :: rest)
    (h : l.run a s = .ended s') : exec i s = .next s' := by
  rw [exec_run hs]
  exact takeLine_ended (job := ⟨w, a, _⟩) (by simpa [linesOf] using hp) h

/-- A later step of a command whose line is done. -/
theorem exec_line_done {i : Instr} {s s' : State} {w : Word} {a : Args} {l : SeqLine} {rest more : List SeqLine}
    (hs : s.seq = .run { word := w, args := a, todo := l :: rest }) (hl : l ≠ .start)
    (h : l.run a s = .done s' more) :
    exec i s = .next { s' with seq := .run { word := w, args := a, todo := more ++ rest } } := by
  rw [exec_run hs]
  refine takeLine_done (job := ⟨w, a, _⟩) (l := l) ?_ h
  cases l <;> first | rfl | exact absurd rfl hl

/-- The last step of a command. -/
theorem exec_line_ended {i : Instr} {s s' : State} {w : Word} {a : Args} {l : SeqLine} {rest : List SeqLine}
    (hs : s.seq = .run { word := w, args := a, todo := l :: rest }) (hl : l ≠ .start)
    (h : l.run a s = .ended s') : exec i s = .next s' := by
  rw [exec_run hs]
  refine takeLine_ended (job := ⟨w, a, _⟩) (l := l) (rest := rest) ?_ h
  cases l <;> first | rfl | exact absurd rfl hl

/-- A line that waits. -/
theorem exec_line_wait {i : Instr} {s : State} {w : Word} {a : Args} {l : SeqLine} {rest : List SeqLine}
    (hs : s.seq = .run { word := w, args := a, todo := l :: rest }) (hl : l ≠ .start)
    (h : l.run a s = .wait) : exec i s = .next s := by
  rw [exec_run hs]
  refine takeLine_wait (job := ⟨w, a, _⟩) (l := l) (rest := rest) ?_ h
  cases l <;> first | rfl | exact absurd rfl hl

/-! ### Ends of a command -/

/-- A return with dvfs_lock free is `ended`. -/
theorem finish_of_free {s : State} (h : s.dvfsLock = .free) (v0 v1 : Word) : s.finish v0 v1 = ended s v0 v1 := by
  simp [State.finish, State.endCommand, ended, h]

/-- A raise with dvfs_lock free is `raised`. -/
theorem raiseErr_of_free {s : State} (h : s.dvfsLock = .free) (e : Err) : s.raiseErr e = raised s e.result := by
  simp [State.raiseErr, State.endCommand, raised, h]

/-- A return releases dvfs_lock and enables interrupts (41 R120). -/
theorem finish_of_held {s : State} (h : s.dvfsLock = .held .seq) (v0 v1 : Word) :
    s.finish v0 v1 = { ended s v0 v1 with dvfsLock := .free, irqOff := false } := by
  simp [State.finish, State.endCommand, ended, h]

/-- A raise releases dvfs_lock and enables interrupts (41 R120). -/
theorem raiseErr_of_held {s : State} (h : s.dvfsLock = .held .seq) (e : Err) :
    s.raiseErr e = { raised s e.result with dvfsLock := .free, irqOff := false } := by
  simp [State.raiseErr, State.endCommand, raised, h]

/-! ### Runs of a reaction -/

@[simp] theorem rxTimes_zero (s : State) : rxTimes 0 s = .next s := rfl

theorem rxTimes_succ {s u : State} (h : stepRx s = .next u) (n : Nat) : rxTimes (n + 1) s = rxTimes n u := by
  simp [rxTimes, h]

theorem rxTimes_add {m : Nat} {s u : State} (h : rxTimes m s = .next u) (n : Nat) :
    rxTimes (m + n) s = rxTimes n u := by
  induction m generalizing s with
  | zero => cases h; simp
  | succ m ih =>
    cases hv : stepRx s with
    | next v => rw [rxTimes_succ hv] at h; rw [Nat.succ_add, rxTimes_succ hv, ih h]
    | fault f => simp [rxTimes, hv] at h
    | refused r => simp [rxTimes, hv] at h

/-- A step of RX whose line is done. -/
theorem stepRx_done {s s' : State} {l : RxLine} {rest more : List RxLine} (ho : s.irqOff = false)
    (hs : s.rx = .run (l :: rest)) (h : l.run s = .done s' more) :
    stepRx s = .next { s' with rx := .run (more ++ rest) } := by simp [stepRx, ho, hs, h]

end Sys2Proof
end

