-- ==== Sys2Proof/Laws/Table.lean ====
section
/-! SUPPORT. The table text: what the readers of lines give, and how a parse comes out (45_table_io R254 to R262). -/

namespace Sys2Proof.Machine

/-- Reading lines takes as many as asked for, in order, each read by the line reader. -/
theorem readLines_eq_some {α : Type} {f : List Token → Option α} {ls : List (List Token)} {n : Nat} {as : List α}
    {rest : List (List Token)} (h : readLines f ls n = some (as, rest)) :
    as.length = n ∧ ∃ done, ls = done ++ rest ∧ done.map f = as.map some := by
  induction n generalizing ls as rest with
  | zero => cases ls <;> simp [readLines] at h <;> obtain ⟨rfl, rfl⟩ := h <;> exact ⟨rfl, [], rfl, rfl⟩
  | succ n ih =>
    cases ls with
    | nil => simp [readLines] at h
    | cons l ls =>
      simp only [readLines] at h
      split at h <;> simp only [Option.some.injEq, Prod.mk.injEq, reduceCtorEq] at h
      rename_i a as' rest' ha hr
      obtain ⟨rfl, rfl⟩ := h
      obtain ⟨hl, done, rfl, hd⟩ := ih hr
      exact ⟨by simp [hl], l :: done, rfl, by simp [ha, hd]⟩

/-- The lines of a list of readable lines come out in order. -/
theorem readLines_append {α : Type} {f : List Token → Option α} {done rest : List (List Token)} {as : List α}
    (h : done.map f = as.map some) : readLines f (done ++ rest) as.length = some (as, rest) := by
  induction done generalizing as with
  | nil => cases as <;> simp at h; simp [readLines]
  | cons l done ih =>
    cases as with
    | nil => simp at h
    | cons a as =>
      simp only [List.map_cons, List.cons.injEq] at h
      simp [readLines, h.1, ih h.2]

/-- The cells fall into as many rows as there are frequency states. -/
@[simp] theorem length_rows {α : Type} (n k : Nat) (as : List α) : (rows n k as).length = k := by
  induction k generalizing as with
  | zero => rfl
  | succ k ih => simp [rows, ih]

/-- Every row is full where there are enough cells. -/
theorem length_of_mem_rows {α : Type} {n k : Nat} {as row : List α} (h : k * n ≤ as.length)
    (hr : row ∈ rows n k as) : row.length = n := by
  induction k generalizing as with
  | zero => simp [rows] at hr
  | succ k ih =>
    rw [Nat.succ_mul] at h
    simp only [rows, List.mem_cons] at hr
    rcases hr with rfl | hr
    · simp; omega
    · exact ih (by simp; omega) hr

/-- The rows hold the cells in order. -/
theorem flatten_rows {α : Type} {n k : Nat} {as : List α} (h : as.length = k * n) : (rows n k as).flatten = as := by
  induction k generalizing as with
  | zero => simp at h; simp [rows, h]
  | succ k ih =>
    rw [Nat.succ_mul] at h
    simp [rows, ih (as := as.drop n) (by simp; omega)]

/-- How a parse comes out: no header, no allocation, no body, or a table (45 R259, R261). -/
theorem parse_cases (p : Params) (text : List Byte) (ok : Bool) :
    ((∀ hdr ls, tokenLines text = hdr :: ls → headerLine hdr = none) ∧ parse p text ok = .error .parseError) ∨
    (∃ hdr ls n, tokenLines text = hdr :: ls ∧ headerLine hdr = some n ∧
      ((ok = false ∧ parse p text ok = .error .allocFailed) ∨
        (ok = true ∧ parseBody p n ls = none ∧ parse p text ok = .error .parseError) ∨
        (ok = true ∧ ∃ t, parseBody p n ls = some t ∧ parse p text ok = .ok t))) := by
  cases hl : tokenLines text with
  | nil => exact .inl ⟨by simp, by simp [parse, hl]⟩
  | cons hdr ls =>
    cases hn : headerLine hdr with
    | none => exact .inl ⟨by rintro _ _ ⟨⟩; exact hn, by simp [parse, hl, hn]⟩
    | some n =>
      refine .inr ⟨hdr, ls, n, rfl, hn, ?_⟩
      cases ok
      · exact .inl ⟨rfl, by simp [parse, hl, hn]⟩
      · cases ht : parseBody p n ls with
        | none => exact .inr (.inl ⟨rfl, rfl, by simp [parse, hl, hn, ht]⟩)
        | some t => exact .inr (.inr ⟨rfl, t, rfl, by simp [parse, hl, hn, ht]⟩)

/-- What the body of a table that parses is (45 R255 to R258, R262). -/
theorem parseBody_eq_some {p : Params} {n : Nat} {ls : List (List Token)} {t : Table}
    (h : parseBody p n ls = some t) :
    ∃ wps fs cs l1 l2, readLines (wpLine p.wpValues) ls n = some (wps, l1) ∧
      readLines freqLine l1 (if p.hasFreqLines then p.nFreqStates else 0) = some (fs, l2) ∧
      readLines dcvrLine l2 (p.nFreqStates * n) = some (cs, []) ∧
      t = { wpNum := n, currWp := 0, wp := wps, dvfsStateNum := p.nFreqStates, freq := fs,
            dcvr := rows n p.nFreqStates cs } := by
  unfold parseBody at h
  split at h
  · cases h
  · rename_i wps l1 h1
    split at h
    · cases h
    · rename_i fs l2 h2
      split at h
      · cases h
      · rename_i cs l3 h3
        split at h <;> cases h
        have : l3 = [] := by simpa using ‹l3.isEmpty = true›
        subst this
        exact ⟨wps, fs, cs, l1, l2, h1, h2, h3, rfl⟩

/-- A header gives a number from 1 to 4294967295 (45 R253, R254). -/
theorem headerLine_bound {hdr : List Token} {n : Nat} (h : headerLine hdr = some n) : 1 ≤ n ∧ n ≤ 4294967295 := by
  unfold headerLine at h
  split at h
  · split at h
    · split at h
      · rename_i m hm
        split at h <;> simp only [Option.some.injEq, reduceCtorEq] at h
        subst h
        refine ⟨‹_›, ?_⟩
        unfold decToken at hm
        split at hm
        · split at hm
          · split at hm <;> simp only [Option.some.injEq, reduceCtorEq] at hm
            omega
          · simp at hm
        · simp at hm
      · simp at h
    · simp at h
  · simp at h

end Sys2Proof.Machine
end

