-- ==== Sys2Proof/Tests/Slice0.lean ====
section
/-! SUPPORT. Tests: what the well-formedness checks refuse, every command's word, vectors of 95_test_vectors, and for
every obligation with hypotheses a state that meets them. -/

namespace Sys2Proof.Tests

open Machine

/-! ### Helpers -/

/-- The value of a computation that gives one. -/
def okOf {ε α : Type} : Except ε α → Option α
  | .ok a => some a
  | .error _ => none

/-- The error of a computation that gives one. -/
def errOf {ε α : Type} : Except ε α → Option ε
  | .ok _ => none
  | .error e => some e

/-- The next state of a step that gives one. -/
def nextOf : Host.Outcome State Fault Refusal → Option State
  | .next s => some s
  | _ => none

theorem eq_ok {ε α : Type} {x : Except ε α} {a : α} (h : okOf x = some a) : x = .ok a := by
  cases x <;> simp_all [okOf]

theorem eq_error {ε α : Type} {x : Except ε α} {e : ε} (h : errOf x = some e) : x = .error e := by
  cases x <;> simp_all [errOf]

/-- The reset state of PS-A, of PS-B, of PS-C and of PS-S (95 §0). -/
def rstA : State := State.reset
def paramsB : Params := { paramsA with capIntscale := false, capPllscale := true }
def rstB : State := State.resetWith paramsB
def paramsC : Params := { paramsB with busMaxHz := 40000000, perMaxHz := 20000000 }
def rstC : State := State.resetWith paramsC
def paramsS : Params := { paramsA with hasSdma := true }
def rstS : State := State.resetWith paramsS

/-- `s` with a command given to SEQ. -/
def started (s : State) (i : Instr) (a : Args) : State :=
  { s with psr := s.psr ||| 0x1, seq := .run { word := encode i, args := a, todo := [.start] } }

/-- `s` with SEQ before the lines `ls`. -/
def atLines (s : State) (a : Args) (ls : List SeqLine) : State :=
  { s with psr := s.psr ||| 0x1, seq := .run { word := 0, args := a, todo := ls } }

def noArgs : Args := ⟨0, 0, 0, 0⟩
/-- ARG0 alone. -/
def arg (v : Word) : Args := ⟨v, 0, 0, 0⟩
/-- A frequency request. -/
def freqArgs (arm bus per : Nat) : Args := ⟨BitVec.ofNat 32 arm, BitVec.ofNat 32 bus, BitVec.ofNat 32 per, 0⟩

/-- The table of the text T1 (95 §0). -/
def tableT1 : Table :=
  { wpNum := 2, currWp := 0, wp := [[0x10], [0x20]], dvfsStateNum := 1, freq := [],
    dcvr := [[⟨1, 2, 3, 4⟩, ⟨5, 6, 7, 8⟩]] }

theorem started_atStart (s : State) (i : Instr) (a : Args) : AtStart (started s i a) a := ⟨_, rfl⟩

/-! ### Well-formedness: one ill-formed term per check -/

/-- 30_encoding R90: Z is not 0. -/
theorem test_refuse_z : zFieldOk 0x110 = false ∧ commandWordOk 0x110 = false := by decide
/-- 30_encoding R98: a reserved OP. -/
theorem test_refuse_op : opFieldOk 0x17 = false ∧ commandWordOk 0x17 = false := by decide
/-- 20_memory R72: a register offset that is misaligned, narrow, or above the command port; a reserved gap. -/
theorem test_refuse_register_access : accessAdmitted 0x002 4 = false ∧ accessAdmitted 0x000 1 = false ∧
    accessAdmitted 0x124 4 = false ∧ accessAdmitted 0xFFC 4 = false := by decide
/-- 20_memory R72: a DATA access that is misaligned, too wide, or outside the window. -/
theorem test_refuse_data_access : accessAdmitted 0x1001 2 = false ∧ accessAdmitted 0x1000 8 = false ∧
    accessAdmitted 0x3000 4 = false ∧ accessAdmitted 0x1000 0 = false := by decide
/-- 70 R356 clause 1: both scalings at once, a bus below 1 MHz, a log of one slot. -/
theorem test_refuse_inconsistent : ({ paramsA with capPllscale := true } : Params).consistent = false ∧
    ({ paramsA with busMaxHz := 999999 } : Params).consistent = false ∧
    ({ paramsA with logCapacity := 1 } : Params).consistent = false ∧ paramsA.consistent = true := by decide
/-- 70 R356 clause 2: a PLL word with MFI 4, or MFD 0. -/
theorem test_refuse_pll_word : pllWordOk 0x00342000 = false ∧ pllWordOk 0x00003823 = false ∧
    pllWordOk 0x00343823 = true := by decide
/-- 70 R356 clauses 2 and 3, V-RST-6: a reset BRMM of 6; TPLL selected but not locked. -/
theorem test_refuse_reset_values : ({ paramsA with resetDiv := 0x016 } : Params).resetLegal = false ∧
    ({ paramsA with resetDiv := 0x112 } : Params).resetLegal = false ∧ paramsA.resetLegal = true := by decide
/-- 70 R356 clause 4: a constant frequency index of no state; the free function's range is required too. -/
theorem test_refuse_index : ¬({ paramsA with freqIndexFn := .const 1 } : Params).indexOk ∧ paramsA.indexOk ∧
    (({ paramsA with freqIndexFn := .free } : Params).indexOk ↔ ∀ hz t, Config.freqIndexOf hz t < 1) :=
  ⟨Nat.lt_irrefl 1, Nat.zero_lt_one, Iff.rfl⟩
/-- 00_scope R9, 20_memory R77: a default text above TABLE_TEXT_MAX; a base that is not word aligned. -/
theorem test_refuse_text_and_base :
    ({ paramsA with defaultTableText := List.replicate 8193 0x0A } : Params).textAndBaseOk = false ∧
    ({ paramsA with pcsBase := 2 } : Params).textAndBaseOk = false := by decide +kernel
/-- 45_table_io R254 to R258: a table whose `wp` has another length than `wp_num`. -/
theorem test_refuse_table : tableOk paramsA { tableT1 with wpNum := 3 } = false ∧ tableOk paramsA tableT1 = true := by
  decide

/-! ### Decoding: every command's word, written from the opcode map (30_encoding R92) -/

theorem test_decode_req_freq : decode 0x00000001 = .ok .dvfsReqFreq := by rfl
theorem test_decode_intscale : decode 0x00000002 = .ok .dvfsIntscale := by rfl
theorem test_decode_pllscale : decode 0x00000003 = .ok .dvfsPllscale := by rfl
theorem test_decode_relock : decode 0x00000004 = .ok .dvfsRelock := by rfl
theorem test_decode_dvfs_enable : decode 0x00000005 = .ok .dvfsEnable := by rfl
theorem test_decode_dvfs_disable : decode 0x00000006 = .ok .dvfsDisable := by rfl
theorem test_decode_dvfs_get_state : decode 0x00000007 = .ok .dvfsGetState := by rfl
theorem test_decode_get_cpu_freq : decode 0x00000008 = .ok .getCpuFreq := by rfl
theorem test_decode_lpm_enter : decode 0x0000000C = .ok .lpmEnter := by rfl
theorem test_decode_dptc_enable : decode 0x00000010 = .ok .dptcEnable := by rfl
theorem test_decode_dptc_disable : decode 0x00000011 = .ok .dptcDisable := by rfl
theorem test_decode_enable_rc : decode 0x00000012 = .ok .dptcEnableRc := by rfl
theorem test_decode_disable_rc : decode 0x00000013 = .ok .dptcDisableRc := by rfl
theorem test_decode_dptc_get_state : decode 0x00000014 = .ok .dptcGetState := by rfl
theorem test_decode_set_wp : decode 0x00000015 = .ok .dptcSetWp := by rfl
theorem test_decode_set_freq_index : decode 0x00000016 = .ok .setFreqIndex := by rfl
theorem test_decode_set_table : decode 0x00000020 = .ok .setTable := by rfl
theorem test_decode_get_table : decode 0x00000021 = .ok .getTable := by rfl
theorem test_decode_log_read : decode 0x00000028 = .ok .logRead := by rfl
theorem test_decode_suspend : decode 0x00000030 = .ok .sysSuspend := by rfl
theorem test_decode_resume : decode 0x00000031 = .ok .sysResume := by rfl
/-- V-ENC-1, V-ENC-2, V-ENC-3. -/
theorem test_decode_reserved :
    [0x0, 0x110, 0xFF, 0x09, 0x0F, 0x17, 0x22, 0x29, 0x32].all
      (fun w : Word => (okOf (decode w)).isNone) = true := by decide
theorem test_decode_table_word : decodeTableWord 32 0x15 = some .dptcSetWp ∧ decodeTableWord 32 0x115 = none := by
  decide

/-! ### Vectors of the pure functions -/

/-- V-CLK-1 to V-CLK-5. -/
theorem test_pll_hz :
    [0x00343823, 0x0034500C, 0x00343FFF, 0x0C343823, 0x00347940].map (fun r => okOf (pllHz paramsA false r)) =
      [some 399000000, some 532000000, some 363000000, some 99750000, some 1100000000] := by decide
/-- V-DVFS-1, V-DVFS-1b. -/
theorem test_brmm_point :
    [0, 1, 2, 3, 4].map (fun k => okOf (brmmPoint 399000000 133000000 k)) =
      [some 399000000, some 266000000, some 199500000, some 159600000, some 133000000] ∧
    okOf (brmmPoint 532000000 177333333 2) = some 265999999 := by decide
/-- V-DVFS-3 to V-DVFS-8. -/
theorem test_calc_brmm :
    [199500000, 266000000, 300000000, 319200000, 100000000, 399000000].map
      (fun r => calcBrmm r 399000000 133000000) = [2, 1, 1, 0, 4, 0] := by decide
/-- V-ADJ-1 to V-ADJ-4, V-ADJ-7. -/
theorem test_dividers :
    [(399000000, 133000000, 66500000), (532000000, 133000000, 66500000), (532000000, 150000000, 66500000),
      (100000000, 133000000, 66500000), (295000000, 133000000, 66500000)].map
      (fun q : Nat × Nat × Nat => (okOf (dividers q.1 q.2.1 q.2.2)).bind okOf) =
      [some 0x50, some 0x58, some 0x58, some 0x40, some 0x50] := by decide
/-- V-ADJ-5, V-ADJ-6, V-ADJ-8. -/
theorem test_divider_errors :
    [(400000000, 40000000, 20000000), (399000000, 133000000, 20000000), (350000000, 40000000, 20000000)].map
      (fun q : Nat × Nat × Nat => (okOf (dividers q.1 q.2.1 q.2.2)).bind errOf) =
      [some .ahbMaxDividerExceeded, some .ipgMaxDividerExceeded, some .ahbMaxDividerExceeded] := by decide
/-- V-DVFS-14, V-DVFS-15, V-DVFS-16b. -/
theorem test_pll_scale :
    okOf (pllScale paramsB false 312000000 0x00343823) = some (399000000, 0x00343000, 312000000) ∧
    okOf (pllScale paramsB false 100000000 0x00343823) = some (399000000, 0x00342823, 295000000) ∧
    okOf (pllScale paramsB false 400000000 0x00343000) = some (312000000, 0x00343824, 400000000) := by decide
/-- V-DVFS-20, V-DVFS-21, V-DVFS-25. -/
theorem test_relock_pdf : relockPdf 532000000 133000000 = 3 ∧ relockPdf 399000000 133000000 = 2 ∧
    relockPdf 1100000000 133000000 = 8 := by decide
/-- The table of T1, and its text (W5). -/
theorem test_parse_t1 : okOf (parse paramsA tableTextT1 true) = some tableT1 := by decide
theorem test_serialize_t1 : serialize paramsA tableT1 = tableTextT1 := by decide
/-- V-TBL-3, V-TBL-7b, V-TBL-9a. -/
theorem test_parse_errors : errOf (parse paramsA (tableTextT1.take 53) true) = some .parseError ∧
    errOf (parse paramsA [] true) = some .parseError ∧
    errOf (parse paramsA tableTextT1 false) = some .allocFailed := by decide
/-- V-LOG-4. -/
theorem test_log_record : logRecord ⟨0x64, 1, 0x20, 0⟩ =
    [0x64, 0, 0, 0, 1, 0, 0, 0, 0x20, 0, 0, 0, 0, 0, 0, 0] := by decide
/-- V-MEM-1, V-MEM-2: the window is little-endian. -/
theorem test_data_little_endian :
    let m := Memory.writeBytes (Memory.write (Memory.write [] 0 0x78) 1 0x56) 2 [0x34, 0x12]
    bytesToNat (m.readBytes 0 4) = 0x12345678 ∧ bytesToNat (m.readBytes 2 2) = 0x1234 := by decide

/-! ### One step of each command -/

/-- RESULT after one step of a command. -/
def resultAfter (i : Instr) (s : State) : Option Word := (nextOf (exec i s)).map (·.result)

/-- V-DVFS-12b. -/
theorem test_req_freq : resultAfter .dvfsReqFreq
    (started { rstA with params := { paramsA with capIntscale := false } } .dvfsReqFreq noArgs) = some 0x0705 := by
  decide
/-- V-DVFS-10a, V-DVFS-10b, V-DVFS-11c. -/
theorem test_intscale :
    [freqArgs 401000000 133000000 66500000, freqArgs 999999 133000000 66500000, noArgs].map
      (fun a => resultAfter .dvfsIntscale (started rstA .dvfsIntscale a)) =
      [some 0x0101, some 0x0101, some 0x0201] := by decide
/-- V-DVFS-13: the step that reads DIV plans the divider write 0x50. -/
theorem test_intscale_adjusts :
    (nextOf (exec .dvfsIntscale (atLines { rstA with div := 0 } (freqArgs 199500000 133000000 66500000)
      [.read .div (.intDiv 399000000)]))).map (·.seq) =
    some (.run { word := 0, args := freqArgs 199500000 133000000 66500000
                 todo := [.op (.modify .div 0xF8 0x50), .read .div (.intDivAgain 399000000)] }) := by decide
/-- V-DVFS-12a on PLLSCALE. -/
theorem test_pllscale : resultAfter .dvfsPllscale (started rstA .dvfsPllscale noArgs) = some 0x0705 := by
  decide
/-- V-DVFS-20: the combined write 0x118 starts the switch, PLLSR 0x05. -/
theorem test_relock : (nextOf (exec .dvfsRelock (atLines rstA (arg 1)
      [.op (.modify .div 0x13F (relockValue 1 3))]))).map (fun t => (t.div, t.pllsr)) = some (0x118, 0x05) := by
  decide
/-- V-DVFS-24a, V-DVFS-24b. -/
theorem test_relock_mode : resultAfter .dvfsRelock (started rstA .dvfsRelock (arg 2)) = some 0x1401 ∧
    resultAfter .dvfsRelock (started { rstA with params := { paramsA with capRelock := false } } .dvfsRelock (arg 2)) =
      some 0x0705 := by decide
/-- V-DVFS-27b, its register write. -/
theorem test_dvfs_enable : (nextOf (exec .dvfsEnable (started rstA .dvfsEnable noArgs))).map (·.dvfscr) = some 1 := by
  decide
/-- V-DVFS-27f. -/
theorem test_dvfs_disable : resultAfter .dvfsDisable (started rstA .dvfsDisable noArgs) = some 0x0902 := by
  decide
/-- V-DVFS-27d. -/
theorem test_dvfs_get_state : (nextOf (exec .dvfsGetState
    (started { rstA with dvfsActive := true } .dvfsGetState noArgs))).map (·.rval0) = some 1 := by decide
/-- V-DVFS-28a: what the read computes. -/
theorem test_get_cpu_freq : (nextOf (exec .getCpuFreq (started rstA .getCpuFreq noArgs))).map (·.seq) =
    some (.run { word := 8, args := noArgs, todo := [.ret 0x0BE420E0 0] }) := by decide
/-- V-LPM-5b. -/
theorem test_lpm_enter : resultAfter .lpmEnter
    (started { rstA with env := { rstA.env with probe := true } } .lpmEnter (arg 4)) = some 0x1401 := by
  decide
/-- V-LPM-4: the lines of DEEP_SLEEP, in order. -/
theorem test_lpm_deep_sleep : lpmModeLines 3 =
    [.op (.modify .inten 0x1 0), .op (.modify .lpmcr 0x8 0x8), .op (.modify .lpmcr 0x10 0x10),
     .op (.modify .lpmcr 0x4 0), .op (.modify .lpmcr 0x3 0x3)] := by decide
/-- V-DPTC-3, V-DPTC-8. -/
theorem test_dptc_enable :
    resultAfter .dptcEnable (started { rstA with dptcActive := true } .dptcEnable noArgs) = some 0x0802 ∧
    resultAfter .dptcEnable (started { rstA with table := none } .dptcEnable noArgs) = some 0x1502 := by
  decide
/-- V-DPTC-11: the first write, over a CAUSE that it clears. -/
theorem test_dptc_disable : (nextOf (exec .dptcDisable
    (started { rstA with dptcActive := true, dptccr := 0x055 } .dptcDisable noArgs))).map (·.dptccr) = some 0x050 := by
  decide
/-- V-DPTC-7a. -/
theorem test_enable_rc : (nextOf (exec .dptcEnableRc
    (started { rstA with rcState := 1 } .dptcEnableRc (arg 6)))).map (·.rcState) = some 7 := by decide
/-- V-DPTC-7b, V-EXC-7. -/
theorem test_disable_rc :
    (nextOf (exec .dptcDisableRc (started { rstA with rcState := 7 } .dptcDisableRc (arg 2)))).map (·.rcState) = some 5 ∧
    resultAfter .dptcDisableRc (started { rstA with dptcActive := true } .dptcDisableRc (arg 0x10)) = some 0x0D01 := by
  decide
/-- V-DPTC-14. -/
theorem test_dptc_get_state : (nextOf (exec .dptcGetState (started rstA .dptcGetState noArgs))).map (·.rval0) =
    some 0 := by decide
/-- V-DPTC-1a to V-DPTC-1e: the point `curr_wp` is set to. -/
theorem test_set_wp : [0xFFFFFFFF, 1, 5, 0x7FFFFFFF, 0x80000000].map
    (fun v => ((nextOf (exec .dptcSetWp (started rstA .dptcSetWp (arg v)))).bind (·.table)).map (·.currWp)) =
    [some 0, some 1, some 1, some 1, some 0] := by decide
/-- V-DPTC-6b, V-DPTC-6c, V-DPTC-6d. -/
theorem test_set_freq_index : resultAfter .setFreqIndex (started rstA .setFreqIndex (arg 1)) = some 0x0B01 ∧
    resultAfter .setFreqIndex (started { rstA with dptcActive := true } .setFreqIndex (arg 1)) = some 0x0B01 ∧
    resultAfter .setFreqIndex (started { rstA with dptcActive := true } .setFreqIndex (arg 0)) = some 0x0C02 := by
  decide
/-- V-TBL-7a, V-TBL-20. -/
theorem test_set_table : resultAfter .setTable (started rstA .setTable (arg 8193)) = some 0x0F01 ∧
    resultAfter .setTable (started { rstA with suspended := true } .setTable (arg 74)) = some 0x1206 := by
  decide
/-- V-TBL-11a, V-TBL-12: the swap finds the table busy. -/
theorem test_set_table_busy :
    resultAfter .setTable (atLines { rstA with dvfsActive := true } noArgs [.swap tableT1]) = some 0x0C02 ∧
    resultAfter .setTable (atLines { rstA with mbPending := true } noArgs [.swap tableT1]) = some 0x0C02 := by
  decide
/-- W5: the text is at DATA offset 0. -/
theorem test_get_table : (nextOf (exec .getTable (started rstA .getTable noArgs))).map
    (fun t => t.data.readBytes 0 75) = some (tableTextT1 ++ [0]) := by decide
/-- V-LOG-3a: two of three entries, oldest first. -/
theorem test_log_read : (nextOf (exec .logRead (started { rstA with log :=
      { buf := [none, some ⟨1, 0, 0, 0⟩, some ⟨2, 0, 0, 0⟩, some ⟨3, 0, 0, 0⟩], head := 0, tail := 1 } }
      .logRead (arg 2)))).map (fun t => (t.log.tail, bytesToNat (t.data.readBytes 0 4),
        bytesToNat (t.data.readBytes 16 4), bytesToNat (t.data.readBytes 32 4))) = some (3, 1, 2, 0) := by
  decide
/-- V-CS-1, V-CS-4. -/
theorem test_suspend_resume :
    (nextOf (exec .sysSuspend (started rstA .sysSuspend noArgs))).map (·.suspended) = some true ∧
    (nextOf (exec .sysResume (started { rstA with suspended := true } .sysResume noArgs))).map (·.suspended) =
      some false := by decide
/-- P1 steps 2 and 3: the cause 1 over DPTCCR 0x051, then the handler. -/
theorem test_interrupt :
    (envDptc .decrease { rstA with dptccr := 0x051 }).dptccr = 0x055 ∧
    (nextOf (step { rstA with dptccr := 0x055 })).map (fun t => (t.dptccr, t.mbCause, t.mbPending)) =
      some (0x052, 1, true) := by decide
/-- V-MEM-6, V-MEM-8. -/
theorem test_reserved_bits : (rstA.writeCsr .div 0xFFFFFE12).div = 0x012 ∧
    ({ rstS with dptccr := 0x151 }.writeCsr .dptccr 0x052).dptccr = 0x152 := by decide
/-- V-RST-1, V-RST-2, V-RST-4. -/
theorem test_reset : rstA.table = some tableT1 ∧ rstS.dptccr = 0x102 ∧
    (State.resetWith { paramsA with resetDiv := 0x112, resetTpllLock := true }).pllsr = 0x0B ∧
    rstA.log.buf[0]? = some (some ⟨0, 0, 0x10, 0⟩) := by decide
/-- A command given by `withFetchWord` takes its first step next. -/
theorem test_with_fetch_word :
    (nextOf (step (State.reset.withFetchWord 32 0x30))).map (·.suspended) = some true := by decide

/-! ### Witnesses: for every statement with hypotheses, a state and operands that meet them -/

/-- A HOST write, and a HOST read, of one word (PS-A has PCS_BASE 0). -/
def hostW (off : Nat) (v : Word) : Input := .host (.write (0 + off) 4 v)
def hostR (off : Nat) : Input := .host (.read (0 + off) 4)

theorem irqOff_rstA : rstA.irqEnabled = false := by decide
theorem noDone_rstA : PollBit.swDone.sample rstA.pllsr = false := by decide
theorem noLock_rstA : (PollBit.lock true).sample rstA.pllsr = false := by decide

/-- A started command with operands, no lock held. -/
theorem test_hyp_started (i : Instr) (a : Args) :
    AtStart (started rstA i a) a ∧ Unlocked (started rstA i a) := ⟨⟨_, rfl⟩, rfl, rfl, rfl, rfl⟩

theorem test_hyp_StepRunsTheDecodedCommand :
    (let s := withInputs (started rstA .dvfsIntscale noArgs) [.seq]
     s.env.inputs = .seq :: [] ∧ s.irqEnabled = false ∧
       s.seq = .run { word := 2, args := noArgs, todo := [.start] } ∧ decode 2 = .ok .dvfsIntscale) ∧
    (let s := started rstA .sysResume noArgs
     s.env.inputs = [] ∧ s.irqEnabled = false ∧
       s.seq = .run { word := 0x31, args := noArgs, todo := [.start] } ∧ decode 0x31 = .ok .sysResume) :=
  ⟨⟨rfl, by decide, rfl, rfl⟩, rfl, by decide, rfl, rfl⟩

/-- A reserved Z, and a reserved OP. -/
theorem test_hyp_ReservedWordRaisesUnknownCommand :
    (∀ w : Word, let s := withInputs { rstA with seq := .run { word := w, args := noArgs, todo := [.start] } } [.seq]
      s.env.inputs = .seq :: [] ∧ s.irqEnabled = false ∧
        s.seq = .run { word := w, args := noArgs, todo := [.start] } ∧ s.dvfsLock = .free) ∧
    (0x110 : Word).extractLsb' 8 24 ≠ 0 ∧ ∀ i : Instr, i.opcode ≠ (0x17 : Word).extractLsb' 0 8 :=
  ⟨fun _ => ⟨rfl, irqOff_rstA, rfl, rfl⟩, by decide, fun i => by cases i <;> decide⟩

/-- A state in which no line that can wait goes on. -/
def stuck (l : SeqLine) : State :=
  { atLines rstA noArgs [l] with regLock := .held .rx, dvfsLock := .held .rx, logMutex := .held .rx
                                 env := { rstA.env with pmicStalled := true } }

theorem test_hyp_WaitingLinesChangeNothing (l : SeqLine) :
    AtLines (stuck l) noArgs [l] ∧ PollBit.swDone.sample (stuck l).pllsr = false ∧
      (PollBit.lock true).sample (stuck l).pllsr = false ∧ (stuck l).env.pmicStalled = true ∧
      (stuck l).regLock ≠ .free ∧ (stuck l).logMutex ≠ .free ∧ (stuck l).dvfsLock ≠ .free :=
  ⟨⟨_, rfl⟩, noDone_rstA, noLock_rstA, rfl, by simp [stuck], by simp [stuck], by simp [stuck]⟩

theorem test_hyp_CmdWriteStartsACommandOrSetsOvr :
    (∀ ins, (withInputs rstA ins).env.hostStuck = false ∧
      (withInputs (started rstA .lpmEnter noArgs) ins).env.hostStuck = false) ∧
    (let s := withInputs rstA [hostW 0x100 2]
     s.env.inputs = .host (.write (s.params.pcsBase + 0x100) 4 2) :: [] ∧ psrBusy s.psr = false) ∧
    (let s := withInputs (started rstA .lpmEnter noArgs) [hostW 0x100 2]
     s.env.inputs = .host (.write (s.params.pcsBase + 0x100) 4 2) :: [] ∧ psrBusy s.psr = true) ∧
    (let s := withInputs rstA [hostR 0x100]
     s.env.inputs = .host (.read (s.params.pcsBase + 0x100) 4) :: []) :=
  ⟨fun _ => ⟨rfl, rfl⟩, ⟨rfl, by decide⟩, ⟨rfl, by decide⟩, rfl⟩

/-- The HOST of PS-A, stuck at an access below PCS_BASE 4 with another access to come. -/
def rstStuck : State :=
  { rstA with params := { paramsA with pcsBase := 4 }, env := { rstA.env with hostStuck := true, inputs := [hostR 0] } }

/-- The last word of the command port, both ends of the DATA window; the first offsets outside them; an address below
PCS_BASE; a HOST that is stuck. -/
theorem test_hyp_BusAdmitsAlignedAccessesOnly :
    (∀ ins, (withInputs rstA ins).env.hostStuck = false) ∧ 3 < rstStuck.params.pcsBase ∧
    rstStuck.env.hostStuck = true ∧ rstStuck.env.inputs = .host (.read 0 4) :: [] ∧
    (∀ off size v, (withInputs rstA [.host (.write (0 + off) size v)]).env.inputs =
      .host (.write (rstA.params.pcsBase + off) size v) :: []) ∧
    (let ok : Nat → Nat → Bool := fun off size => (off < 0x124 ∧ off % 4 = 0 ∧ size = 4) ∨
        (0x1000 ≤ off ∧ off < 0x3000 ∧ (size = 1 ∨ size = 2 ∨ size = 4) ∧ off % size = 0)
     [(0, 4), (0x120, 4), (0x1000, 1), (0x1000, 4), (0x2FFC, 4), (0x2FFE, 2), (0x2FFF, 1)].all
        (fun q : Nat × Nat => ok q.1 q.2) = true ∧
     [(2, 4), (0x124, 4), (0x120, 2), (0xFFC, 4), (0x2FFE, 4), (0x3000, 1), (0x1000, 3), (0x1000, 0)].all
        (fun q : Nat × Nat => !ok q.1 q.2) = true) :=
  ⟨fun _ => rfl, by decide, rfl, rfl, fun _ _ _ => rfl, by decide, by decide⟩

/-- A misaligned access leaves the HOST stuck, and its next access does nothing (R72). -/
theorem test_stuck_host :
    (match core.run 2 (withInputs rstA [.host (.write 2 4 7), hostW 0x104 7]) with
     | .next t => t.env.hostStuck && decide (t.args = rstA.args) && t.env.inputs.isEmpty
     | _ => false) = true := by decide

theorem test_hyp_RegistersReadBackTheBitsThatExist :
    (let s := withInputs rstA [hostW 0x010 0xFF, hostR 0x010]
     s.env.hostStuck = false ∧
       s.env.inputs = [.host (.write (s.params.pcsBase + 0x010) 4 0xFF), .host (.read (s.params.pcsBase + 0x010) 4)] ∧
       ((0x010 : Nat), (0x1F : Word)) ∈ [(0x010, (0xFF : Word) &&& 0x1F)]) ∧
    ([0x01C, 0x038, 0x0FC].all (fun off => off = 0x01C ∨ (0x038 ≤ off ∧ off ≤ 0x0FC ∧ off % 4 = 0)) = true) ∧
    (∀ v, let s := withInputs rstA [hostW 0x004 v]
      s.env.hostStuck = false ∧ s.env.inputs = .host (.write (s.params.pcsBase + 0x004) 4 v) :: [] ∧
        ((0x004 : Nat), ({ s with mpll := v &&& 0x3FFF7FFF } : State)) ∈
          [(0x004, { s with mpll := v &&& 0x3FFF7FFF })]) ∧
    (let s := withInputs rstA [.host (.write rstA.params.pcsBase 4 0x0FF)]
     s.env.inputs = .host (.write s.params.pcsBase 4 0x0FF) :: [] ∧
       (s.params.capRelock && (0x0FF : Word).getLsbD 8) = s.div.getLsbD 8) ∧
    ({ rstA with pllsr := 0x005 } : State).pllsr.getLsbD 2 = true :=
  ⟨⟨rfl, rfl, by decide⟩, by decide, fun _ => ⟨rfl, rfl, by simp⟩, ⟨rfl, by decide⟩, by decide⟩

theorem test_hyp_DataWindowIsLittleEndian :
    (∀ ins, (withInputs rstA ins).env.hostStuck = false) ∧ rstA.data.wf = true ∧
    [(0, 4), (8188, 4), (8190, 2), (8191, 1)].all (fun q : Nat × Nat =>
      q.1 < 8192 ∧ (q.2 = 1 ∨ q.2 = 2 ∨ q.2 = 4) ∧ q.1 % q.2 = 0) = true ∧
    (∀ off size v, (withInputs rstA [.host (.write (0 + (0x1000 + off)) size v)]).env.inputs =
      .host (.write (rstA.params.pcsBase + (0x1000 + off)) size v) :: []) ∧
    (∀ off size, (withInputs rstA [.host (.read (0 + (0x1000 + off)) size)]).env.inputs =
      .host (.read (rstA.params.pcsBase + (0x1000 + off)) size) :: []) :=
  ⟨fun _ => rfl, rfl, by decide, fun _ _ _ => rfl, fun _ _ => rfl⟩

/-- A write of PLLSR; and the step that sets SW_DONE. -/
theorem test_hyp_SwDoneIsClearedByOneAndSetByTheSwitchOnly :
    (withInputs rstA [hostW 0x00C 0x10]).env.hostStuck = false ∧
    (withInputs rstA [hostW 0x00C 0x10]).env.inputs =
      .host (.write (rstA.params.pcsBase + 0x00C) 4 0x10) :: [] ∧
    (let s := withInputs { rstA with pllsr := 0x07, pllTarget := true } [.pllDone]
     ∃ t, step s = .next t ∧ pllsrSwDone s.pllsr = false ∧ pllsrSwDone t.pllsr = true) :=
  ⟨rfl, rfl, _, rfl, by decide, by decide⟩

theorem test_hyp_PllSwitchLocksThenCompletes :
    let s := withInputs rstA [.host (.write rstA.params.pcsBase 4 0x112), .pllDone, .pllLock, .pllDone]
    s.env.hostStuck = false ∧ s.params.capRelock = true ∧ (0x112 : Word).getLsbD 8 ≠ s.div.getLsbD 8 ∧ s.pllsr.getLsbD 2 = false ∧
      s.pllsr.getLsbD (if (0x112 : Word).getLsbD 8 then 1 else 0) = false ∧
      s.env.inputs = [.host (.write s.params.pcsBase 4 0x112), .pllDone, .pllLock, .pllDone] :=
  ⟨rfl, rfl, by decide, by decide, by decide, rfl⟩

/-- A cause that may be raised; a write of DPTC_EN 0; a step that changes CAUSE. -/
theorem test_hyp_CauseIsRaisedByHardwareAndClearedByDisable :
    (let s := withInputs { rstA with dptccr := 0x051 } [.dptcCause .emergency]
     s.env.inputs = .dptcCause .emergency :: [] ∧ dptcEn s.dptccr = true ∧ dptcCause s.dptccr = 0 ∧
       s.params.hasSdma = false ∧ ∃ t, step s = .next t ∧ dptcCause t.dptccr ≠ dptcCause s.dptccr) ∧
    (0x05E : Word).getLsbD 0 = false :=
  ⟨⟨rfl, by decide, by decide, rfl, _, rfl, by decide⟩, by decide⟩

/-- ENV_SDMA enabled, and not. -/
theorem test_hyp_SdmaSelectsAWorkingPointInOneStep :
    (∀ w : Word, let s := withInputs { rstS with dptccr := w, table := some tableT1 } [.sdma 1 .increase]
      s.env.inputs = .sdma 1 .increase :: [] ∧ s.table = some tableT1 ∧
        tableCell tableT1 s.currentFreqIndex 1 = some ⟨5, 6, 7, 8⟩ ∧ s.params.hasSdma = true) ∧
    (dptcEn 0x151 = true ∧ dptcVoltValid 0x151 = true ∧ dptcCause 0x151 = 0) ∧ dptcVoltValid 0x051 = false :=
  ⟨fun _ => ⟨rfl, rfl, rfl, rfl⟩, by decide, by decide⟩

/-- A usual register; the smallest MFD and MFI with a sum of 0; a reserved MFD; a reserved MFI; a reserved BRMM. -/
theorem test_hyp_PllFrequencyIsTheFormula : paramsA.clockModelFn = .reference ∧
   (    let mfn := fun r : Word => (r.extractLsb' 0 11).toInt
    let mfi := fun r : Word => (r.extractLsb' 11 4).toNat
    let mfd := fun r : Word => (r.extractLsb' 16 10).toNat
    [0x00343823, 0x00012FFB].all (fun r : Word =>
      1 ≤ mfd r ∧ 5 ≤ mfi r ∧ 0 ≤ (mfi r * mfd r : Nat) + mfn r) = true ∧ mfd 0x00002800 = 0 ∧ mfi 0x00342000 < 5 ∧
    4 < ((0x015 : Word).extractLsb' 0 3).toNat) := by
  decide

/-- Both ends of the points; a divisor of 0; a reserved BRMM; two points in order. -/
theorem test_hyp_BrmmPointsRunFromPllDownToAhb :
    (4 ≤ 4 ∧ (4 - 4) * 133 + 4 * 399 ≠ 0) ∧ (4 ≤ 4 ∧ (4 - 4) * 133 + 4 * 0 = 0) ∧ 4 < 5 ∧ 0 < 133 ∧ 0 < 399 ∧
    133 ≤ 399 ∧ 0 ≤ 4 ∧ okOf (brmmPoint 399 133 0) = some 399 ∧ okOf (brmmPoint 399 133 4) = some 133 := by decide

/-- An exact request, and one that is not. -/
theorem test_hyp_BrmmIsExactElseNearestInPeriod :
    let exact : Nat → Nat → Bool := fun req k => req * ((4 - k) * 133 + k * 399) == 4 * 399 * 133
    ([0, 1].map (exact 266) = [false, true]) ∧ [0, 1, 2, 3, 4].all (fun k => !exact 300 k) = true := by decide

theorem test_hyp_DividersKeepTheClocksAtTheirCeilings : 0 < 1 ∧ 0 < 133 := by decide

theorem test_hyp_PllScalingKeepsMfdAndPdfAndFloors : paramsB.clockModelFn = .reference ∧
    pllScale paramsB false 312000000 0x00343823 = .ok (399000000, 0x00343000, 312000000) ∧
    pllScale paramsB false 100000000 0x00343823 = .ok (399000000, 0x00342823, 295000000) :=
  ⟨rfl, eq_ok (by decide), eq_ok (by decide)⟩

/-- The operands of 95 §2.3 for a request. -/
def req (arm : Nat) : Args := freqArgs arm 133000000 66500000

/-- No capability; a wrong bus; an ARM frequency outside the range; a valid request, at both its bounds. -/
theorem test_hyp_RequestsAreValidatedInOrder :
    rstB.params.capIntscale = false ∧ rstA.params.capIntscale = true ∧
    (freqArgs 199500000 132000000 66500000).a1.toNat ≠ rstA.params.busMaxHz ∧
    ((req 999999).a1.toNat = rstA.params.busMaxHz ∧ (req 999999).a2.toNat = rstA.params.perMaxHz ∧
      (req 999999).a0.toNat < rstA.params.armMinHz ∧ rstA.params.armMaxHz < (req 400000001).a0.toNat) ∧
    ValidRequest (started rstA .dvfsIntscale (req 1000000)) (req 1000000) ∧
    ValidRequest (started rstA .dvfsReqFreq (req 400000000)) (req 400000000) := by
  refine ⟨rfl, rfl, by decide, by decide, ?_, ?_⟩ <;> unfold ValidRequest <;> decide

theorem regsOk_busyA : RegsOk { rstA with psr := rstA.psr ||| 0x1 } := by unfold RegsOk; decide
theorem regsOk_busyB : RegsOk { rstB with psr := rstB.psr ||| 0x1 } := by unfold RegsOk; decide
theorem regsOk_rstA (i : Instr) (a : Args) : RegsOk (started rstA i a) := regsOk_busyA
theorem regsOk_rstB (i : Instr) (a : Args) : RegsOk (started rstB i a) := regsOk_busyB
theorem regsOk_plainA : RegsOk rstA := by unfold RegsOk; decide
theorem regsOk_irqA : RegsOk { rstA with dptccr := 0x055 } := by unfold RegsOk; decide
theorem regsOk_offA : RegsOk { rstA with dptccr := 0x052 } := by unfold RegsOk; decide
theorem regsOk_offS : RegsOk { rstS with dptccr := 0x052 } := by unfold RegsOk; decide

/-- V-DVFS-3. -/
theorem test_hyp_IntscaleWithMatchingAhbWritesBrmmOnly :
    let s := started rstA .dvfsIntscale (req 199500000)
    let a := req 199500000
    AtStart s a ∧ Unlocked s ∧ RegsOk s ∧ s.params.capIntscale = true ∧ ValidRequest s a ∧
    pllHz s.params (s.pllsr.getLsbD 3) (if s.pllsr.getLsbD 3 then s.tpll else s.mpll) = .ok 399000000 ∧ a.a0.toNat ≤ 399000000 ∧
    399000000 / 1000000 / (divAhbPdf s.div + 1) = a.a1.toNat / 1000000 :=
  ⟨⟨_, rfl⟩, ⟨rfl, rfl, rfl, rfl⟩, regsOk_rstA _ _, rfl, by unfold ValidRequest; decide, eq_ok (by decide), by decide,
    by decide⟩

/-- V-DVFS-13. -/
theorem test_hyp_IntscaleAdjustsTheDividersFirst :
    let s := started { rstA with div := 0 } .dvfsReqFreq (req 199500000)
    let a := req 199500000
    AtStart s a ∧ Unlocked s ∧ RegsOk s ∧ s.params.capIntscale = true ∧ ValidRequest s a ∧
    pllHz s.params (s.pllsr.getLsbD 3) (if s.pllsr.getLsbD 3 then s.tpll else s.mpll) = .ok 399000000 ∧ a.a0.toNat ≤ 399000000 ∧
    399000000 / 1000000 / (divAhbPdf s.div + 1) ≠ a.a1.toNat / 1000000 ∧ 1000000 ≤ a.a1.toNat ∧
    1000000 ≤ a.a2.toNat ∧ ahbPdf (399000000 / 1000000) (a.a1.toNat / 1000000) = .ok 2 ∧
    ipgPdf (399000000 / 1000000 / (2 + 1)) (a.a2.toNat / 1000000) = .ok 1 :=
  ⟨⟨_, rfl⟩, ⟨rfl, rfl, rfl, rfl⟩, by unfold RegsOk; decide, rfl, by unfold ValidRequest; decide, eq_ok (by decide),
    by decide, by decide, by decide, by decide, eq_ok (by decide), eq_ok (by decide)⟩

/-- V-DVFS-10d; a bus of 40 MHz (V-ADJ-8's error); a peripheral bus of 20 MHz (V-ADJ-6). -/
theorem test_hyp_IntscaleErrorsWriteNoRegister :
    (let s := started rstA .dvfsIntscale (req 400000000)
     ValidRequest s (req 400000000) ∧
       pllHz s.params (s.pllsr.getLsbD 3) (if s.pllsr.getLsbD 3 then s.tpll else s.mpll) = .ok 399000000 ∧
       399000000 < (req 400000000).a0.toNat) ∧
    (let a := freqArgs 199500000 40000000 20000000
     let s := started { rstA with params := { paramsA with busMaxHz := 40000000, perMaxHz := 20000000 } }
       .dvfsIntscale a
     ValidRequest s a ∧ pllHz s.params (s.pllsr.getLsbD 3) (if s.pllsr.getLsbD 3 then s.tpll else s.mpll) = .ok 399000000 ∧
       399000000 / 1000000 / (divAhbPdf s.div + 1) ≠ a.a1.toNat / 1000000 ∧
       ahbPdf (399000000 / 1000000) (a.a1.toNat / 1000000) = .error .ahbMaxDividerExceeded) ∧
    (let a := freqArgs 199500000 133000000 20000000
     let s := started { rstA with div := 0, params := { paramsA with perMaxHz := 20000000 } } .dvfsIntscale a
     ValidRequest s a ∧ pllHz s.params (s.pllsr.getLsbD 3) (if s.pllsr.getLsbD 3 then s.tpll else s.mpll) = .ok 399000000 ∧
       399000000 / 1000000 / (divAhbPdf s.div + 1) ≠ a.a1.toNat / 1000000 ∧
       ahbPdf (399000000 / 1000000) (a.a1.toNat / 1000000) = .ok 2 ∧
       ipgPdf (399000000 / 1000000 / (2 + 1)) (a.a2.toNat / 1000000) = .error .ipgMaxDividerExceeded) :=
  ⟨⟨by unfold ValidRequest; decide, eq_ok (by decide), by decide⟩,
    ⟨by unfold ValidRequest; decide, eq_ok (by decide), by decide, eq_error (by decide)⟩,
    by unfold ValidRequest; decide, eq_ok (by decide), by decide, eq_ok (by decide), eq_error (by decide)⟩

/-- V-DVFS-14. -/
theorem test_hyp_PllscaleWritesThePllAndTheDividers :
    let s := started rstB .dvfsPllscale (req 312000000)
    let a := req 312000000
    AtStart s a ∧ Unlocked s ∧ RegsOk s ∧ s.params.capPllscale = true ∧ s.params.capIntscale = false ∧
    ValidRequest s a ∧
    pllScale s.params (s.pllsr.getLsbD 3) a.a0.toNat (if s.pllsr.getLsbD 3 then s.tpll else s.mpll) =
      .ok (399000000, 0x00343000, 312000000) ∧ 1000000 ≤ a.a1.toNat ∧ 1000000 ≤ a.a2.toNat ∧
    ahbPdf (312000000 / 1000000) (a.a1.toNat / 1000000) = .ok 2 ∧
    ipgPdf (312000000 / 1000000 / (2 + 1)) (a.a2.toNat / 1000000) = .ok 1 :=
  ⟨⟨_, rfl⟩, ⟨rfl, rfl, rfl, rfl⟩, regsOk_rstB _ _, rfl, rfl, by unfold ValidRequest; decide, eq_ok (by decide),
    by decide, by decide, eq_ok (by decide), eq_ok (by decide)⟩

/-- V-DVFS-17, V-DVFS-18; and an IPG divider above its maximum. -/
theorem test_hyp_PllscaleDividerErrorsLeavePartialState :
    (let a := freqArgs 400000000 40000000 20000000
     let s := started { rstC with mpll := 0x00343000, div := 0x050 } .dvfsPllscale a
     AtStart s a ∧ Unlocked s ∧ RegsOk s ∧ ValidRequest s a ∧
       pllScale s.params (s.pllsr.getLsbD 3) a.a0.toNat (if s.pllsr.getLsbD 3 then s.tpll else s.mpll) =
         .ok (312000000, 0x00343824, 400000000) ∧ 312000000 < a.a0.toNat ∧
       ahbPdf (400000000 / 1000000) (a.a1.toNat / 1000000) = .error .ahbMaxDividerExceeded) ∧
    (let a := freqArgs 350000000 40000000 20000000
     let s := started rstC .dvfsPllscale a
     AtStart s a ∧ Unlocked s ∧ RegsOk s ∧ ValidRequest s a ∧
       pllScale s.params (s.pllsr.getLsbD 3) a.a0.toNat (if s.pllsr.getLsbD 3 then s.tpll else s.mpll) =
         .ok (399000000, 0x00343026, 350000000) ∧ a.a0.toNat ≤ 399000000 ∧
       ahbPdf (350000000 / 1000000) (a.a1.toNat / 1000000) = .error .ahbMaxDividerExceeded) ∧
    (ahbPdf (312000000 / 1000000) (133000000 / 1000000) = .ok 2 ∧
      ipgPdf (312000000 / 1000000 / (2 + 1)) (20000000 / 1000000) = .error .ipgMaxDividerExceeded) :=
  ⟨⟨⟨_, rfl⟩, ⟨rfl, rfl, rfl, rfl⟩, by unfold RegsOk; decide, by unfold ValidRequest; decide, eq_ok (by decide),
      by decide, eq_error (by decide)⟩,
    ⟨⟨_, rfl⟩, ⟨rfl, rfl, rfl, rfl⟩, by unfold RegsOk; decide, by unfold ValidRequest; decide, eq_ok (by decide),
      by decide, eq_error (by decide)⟩, eq_ok (by decide), eq_error (by decide)⟩

/-- V-DVFS-20, with the target PLL not locked yet. -/
theorem test_hyp_RelockSwitchesThePll :
    let s := started rstA .dvfsRelock (arg 1)
    AtStart s (arg 1) ∧ Unlocked s ∧ RegsOk s ∧ s.params.capRelock = true ∧ s.pllsr.getLsbD 2 = false ∧
    s.pllsr.getLsbD 3 ≠ true ∧ s.div.getLsbD 8 ≠ true ∧ s.pllsr.getLsbD 1 = false ∧
    pllHz s.params true s.tpll = .ok 532000000 ∧ 0 < s.params.busMaxHz ∧ relockPdf 532000000 s.params.busMaxHz ≤ 7 :=
  ⟨⟨_, rfl⟩, ⟨rfl, rfl, rfl, rfl⟩, regsOk_rstA _ _, rfl, by decide, by decide, by decide, by decide,
    eq_ok (by decide), by decide, by decide⟩

/-- V-DVFS-23. -/
theorem test_hyp_RelockToTheSamePllWritesNothing :
    let s := started rstA .dvfsRelock (arg 0)
    AtStart s (arg 0) ∧ Unlocked s ∧ s.params.capRelock = true ∧ s.pllsr.getLsbD 2 = false ∧
    s.pllsr.getLsbD 3 = false := ⟨⟨_, rfl⟩, ⟨rfl, rfl, rfl, rfl⟩, rfl, by decide, by decide⟩

/-- V-DVFS-24b, V-DVFS-24a, V-DVFS-22, V-DVFS-25. -/
theorem test_hyp_RelockErrorsWriteNothing :
    ({ paramsA with capRelock := false } : Params).capRelock = false ∧ 1 < (arg 2).a0.toNat ∧
    ({ rstA with pllsr := 0x05 } : State).pllsr.getLsbD 2 = true ∧
    (let s := started { rstA with tpll := 0x00347940 } .dvfsRelock (arg 1)
     s.pllsr.getLsbD 2 = false ∧ s.pllsr.getLsbD 3 ≠ true ∧ pllHz s.params true s.tpll = .ok 1100000000 ∧
       7 < relockPdf 1100000000 s.params.busMaxHz) :=
  ⟨rfl, by decide, by decide, by decide, by decide, eq_ok (by decide), by decide⟩

theorem test_hyp_DvfsBlockIsEnabledAndDisabled :
    rstA.suspended = false ∧ rstA.params.capDvfsHw = true ∧ rstA.dvfsActive = false ∧
    ({ rstA with dvfsActive := true } : State).dvfsActive = true ∧
    ({ paramsA with capDvfsHw := false } : Params).capDvfsHw = false := ⟨rfl, rfl, rfl, rfl, rfl⟩

/-- V-DVFS-28a, V-DVFS-28c, V-CLK-6. -/
theorem test_hyp_GetCpuFreqReturnsTheClockModel :
    (let s := started rstA .getCpuFreq noArgs
     pllHz s.params (s.pllsr.getLsbD 3) (if s.pllsr.getLsbD 3 then s.tpll else s.mpll) = .ok 399000000 ∧
       brmmPoint 399000000 (399000000 / (divAhbPdf s.div + 1)) (divBrmm s.div) = .ok 199500000) ∧
    (let s := started { rstA with mpll := 0 } .getCpuFreq noArgs
     pllHz s.params (s.pllsr.getLsbD 3) (if s.pllsr.getLsbD 3 then s.tpll else s.mpll) = .error .pllFieldReserved) ∧
    4 < divBrmm 0x015 ∧
    (let s := started { rstA with mpll := 0x00012FFB } .getCpuFreq noArgs
     pllHz s.params (s.pllsr.getLsbD 3) (if s.pllsr.getLsbD 3 then s.tpll else s.mpll) = .ok 0 ∧ divBrmm s.div ≤ 4 ∧
       (4 - divBrmm s.div) * (0 / (divAhbPdf s.div + 1)) + divBrmm s.div * 0 = 0) :=
  ⟨⟨eq_ok (by decide), eq_ok (by decide)⟩, eq_error (by decide), by decide, eq_ok (by decide), by decide, by decide⟩

theorem test_hyp_LpmRefusesBadModesAndSkipsWithAProbe :
    3 < (arg 4).a0.toNat ∧ (arg 3).a0.toNat ≤ 3 ∧
    ({ rstA with env := { rstA.env with probe := true } } : State).env.probe = true := ⟨by decide, by decide, rfl⟩

/-- Each mode at reset. -/
theorem test_hyp_LpmModesWriteWaitAndRestore :
    (∀ a, (started rstA .lpmEnter a).seq = .run { word := 0x0C, args := a, todo := [.start] }) ∧
    rstA.regLock = .free ∧ rstA.dvfsLock = .free ∧ rstA.env.probe = false ∧ rstA.lpmcr &&& ~~~0x1F = 0 ∧
    ((1 : Word), 4, (2 : Word)) ∈
      [((0 : Word), 2, rstA.lpmcr), (1, 4, (rstA.lpmcr &&& ~~~0x3) ||| 0x2), (2, 5, (rstA.lpmcr &&& ~~~0x7) ||| 0x3),
        (3, 7, 0x1B)] ∧
    (let s := withInputs (atLines rstA noArgs [.wfi, .ret 0 0]) [.wake]
     s.env.inputs = .wake :: [] ∧ s.seq = .run { word := 0, args := noArgs, todo := .wfi :: [.ret 0 0] }) ∧
    (∀ w a todo, (withInputs rstA [.wake]).seq ≠ .run { word := w, args := a, todo := .wfi :: todo }) :=
  ⟨fun _ => rfl, rfl, rfl, rfl, by decide, by decide, ⟨rfl, rfl⟩, fun _ _ _ h => (nomatch h)⟩

theorem test_hyp_DeepSleepWritesInOrder :
    let s := started { rstA with lpmcr := 0x04 } .lpmEnter (arg 3)
    AtStart s (arg 3) ∧ s.regLock = .free ∧ s.env.probe = false ∧ (arg 3).a0 = 3 ∧ s.lpmcr &&& ~~~0x1F = 0 :=
  ⟨⟨_, rfl⟩, rfl, rfl, rfl, by decide⟩

/-- V-DPTC-10. -/
theorem test_hyp_DptcEnableStartsTheEngine :
    let s := started rstA .dptcEnable noArgs
    AtStart s noArgs ∧ Unlocked s ∧ RegsOk s ∧ s.suspended = false ∧ s.env.pmicStalled = false ∧
    s.table = some tableT1 ∧ s.dptcActive = false ∧ tableT1.wp[tableT1.currWp]? = some [0x10] ∧
    cpuHz s.params (s.pllsr.getLsbD 3) (if s.pllsr.getLsbD 3 then s.tpll else s.mpll) s.div = .ok 199500000 ∧
    freqIndexBy s.params.freqIndexFn 199500000 tableT1 < tableT1.dvfsStateNum ∧
    tableCell tableT1 (freqIndexBy s.params.freqIndexFn 199500000 tableT1) tableT1.currWp = some ⟨1, 2, 3, 4⟩ :=
  ⟨⟨_, rfl⟩, ⟨rfl, rfl, rfl, rfl⟩, regsOk_rstA _ _, rfl, rfl, by decide, rfl, rfl, eq_ok (by decide), by decide,
    by decide⟩

/-- What set_wp needs, for both points of T1, without SDMA and with it. -/
theorem setWpReady_rst (p : Params) (hp : p = paramsA ∨ p = paramsS) :
    SetWpReady (State.resetWith p) tableT1 0 ⟨1, 2, 3, 4⟩ [0x10] ∧
    SetWpReady (State.resetWith p) tableT1 1 ⟨5, 6, 7, 8⟩ [0x20] := by
  rcases hp with rfl | rfl <;> unfold SetWpReady <;> decide

/-- V-DPTC-11. -/
theorem test_hyp_DptcDisableStopsTheEngineAtPointZero :
    let s := started { rstA with dptcActive := true, dptccr := 0x051 } .dptcDisable noArgs
    AtStart s noArgs ∧ Unlocked s ∧ RegsOk s ∧ s.suspended = false ∧ s.dptcActive = true ∧
    SetWpReady s tableT1 0 ⟨1, 2, 3, 4⟩ [0x10] :=
  ⟨⟨_, rfl⟩, ⟨rfl, rfl, rfl, rfl⟩, by unfold RegsOk; decide, rfl, rfl, (setWpReady_rst paramsA (.inl rfl)).1⟩

/-- V-DPTC-1d and V-DPTC-1e: both ends of the clamp. -/
theorem test_hyp_DptcSetWpSetsTheClampedPoint :
    (let s := started rstA .dptcSetWp (arg 0x7FFFFFFF)
     AtStart s (arg 0x7FFFFFFF) ∧ Unlocked s ∧ s.suspended = false ∧ s.dptcActive = false ∧
       SetWpReady s tableT1 (min (arg 0x7FFFFFFF).a0.toInt.toNat (tableT1.wpNum - 1)) ⟨5, 6, 7, 8⟩ [0x20]) ∧
    SetWpReady (started rstA .dptcSetWp (arg 0x80000000)) tableT1
      (min (arg 0x80000000).a0.toInt.toNat (tableT1.wpNum - 1)) ⟨1, 2, 3, 4⟩ [0x10] :=
  ⟨⟨⟨_, rfl⟩, ⟨rfl, rfl, rfl, rfl⟩, rfl, rfl, (setWpReady_rst paramsA (.inl rfl)).2⟩,
    (setWpReady_rst paramsA (.inl rfl)).1⟩

/-- V-DPTC-6a, V-DPTC-6f, V-DPTC-7f. -/
theorem test_hyp_SettingCommandsWriteOneVariable :
    rstA.suspended = false ∧ rstA.dptcActive = false ∧ rstA.dvfsActive = false ∧ rstA.table = some tableT1 ∧
    (arg 0).a0.toNat < tableT1.dvfsStateNum ∧ (arg 0xF).a0.toNat ≤ 0xF ∧
    ({ paramsA with dvfsPredictive := true } : Params).dvfsPredictive = true :=
  ⟨rfl, rfl, rfl, by decide, by decide, by decide, rfl⟩

/-- V-DPTC-8, V-DPTC-3, V-DPTC-6b, V-DPTC-6d, V-DPTC-6e, V-DPTC-4, V-DPTC-7c, V-DPTC-7d. -/
theorem test_hyp_DptcCommandsCheckInOrder :
    ({ rstA with table := none } : State).table = none ∧ rstA.table = some tableT1 ∧
    ({ rstA with dptcActive := true } : State).dptcActive = true ∧ tableT1.dvfsStateNum ≤ (arg 1).a0.toNat ∧
    (arg 0).a0.toNat < tableT1.dvfsStateNum ∧
    (({ rstA with dvfsActive := true } : State).dvfsActive = true ∧ rstA.params.dvfsPredictive = false) ∧
    rstA.dptcActive = false ∧ 0xF < (arg 0x10).a0.toNat ∧ (arg 0xF).a0.toNat ≤ 0xF :=
  ⟨rfl, by decide, rfl, by decide, by decide, ⟨rfl, rfl⟩, rfl, by decide, by decide⟩

/-- V-CS-2, V-CS-3, V-CS-4. -/
theorem test_hyp_SuspendGateComesFirst :
    (let s := started { rstA with suspended := true } .logRead noArgs
     AtStart s noArgs ∧ Unlocked s ∧ s.suspended = true) ∧
    ∃ t, exec .getCpuFreq (started rstA .getCpuFreq noArgs) = .next t :=
  ⟨⟨⟨_, rfl⟩, ⟨rfl, rfl, rfl, rfl⟩, rfl⟩, _, rfl⟩

/-- P1 step 2, before a step of nobody, of SEQ, of RX and at IRQ's own; no cause; and interrupts disabled. -/
theorem test_hyp_IrqMasksDisablesAndPostsTheCause :
    (∀ ins, let s := withInputs { rstA with dptccr := 0x055 } ins
      RegsOk s ∧ irqLine s.dptccr = true ∧ s.irqOff = false ∧ s.env.inputs = ins) ∧
    irqLine rstA.dptccr = false ∧
    (∀ ins, let s := withInputs { rstA with irqOff := true } ins
      s.irqOff = true ∧ s.env.inputs = ins) :=
  ⟨fun _ => ⟨regsOk_irqA, (by decide : irqLine 0x055 = true), rfl, rfl⟩, by decide,
    fun _ => ⟨rfl, rfl⟩⟩

/-- V-RX-1's cause 1 from point 0; causes 2 and 3, clamped, from point 0. -/
theorem test_hyp_ReactionMovesTheWorkingPoint :
    (∀ c : BitVec 2, let s := { rstA with dptccr := 0x052, dptcActive := true, mbPending := true, mbCause := c }
      RegsOk s ∧ s.irqOff = false ∧ s.rx = .idle ∧ s.mbPending = true ∧ s.params.hasSdma = false ∧ s.mbCause = c ∧
        SetWpReady s tableT1 1 ⟨5, 6, 7, 8⟩ [0x20] ∧ SetWpReady s tableT1 0 ⟨1, 2, 3, 4⟩ [0x10]) ∧
    1 = min (tableT1.currWp + 1) (tableT1.wpNum - 1) ∧ 0 = min (tableT1.currWp - 1) (tableT1.wpNum - 1) ∧
    (∀ ins, (withInputs rstA ins).irqEnabled = false ∧ (withInputs rstA ins).env.inputs = ins) ∧ rstA.seq = .idle :=
  ⟨fun _ => ⟨regsOk_offA, rfl, rfl, rfl, rfl, rfl,
    (setWpReady_rst paramsA (.inl rfl)).2, (setWpReady_rst paramsA (.inl rfl)).1⟩, by decide, by decide,
    fun _ => ⟨irqOff_rstA, rfl⟩, rfl⟩

/-- V-RX-10's reaction. -/
theorem test_hyp_SdmaReactionReappliesTheSelectedPoint :
    let s := { rstS with dptccr := 0x052, dptcActive := true, mbPending := true, mbCause := 3 }
    RegsOk s ∧ s.irqOff = false ∧ s.rx = .idle ∧ s.mbPending = true ∧ s.params.hasSdma = true ∧
    SetWpReady s tableT1 (min tableT1.currWp (tableT1.wpNum - 1)) ⟨1, 2, 3, 4⟩ [0x10] :=
  ⟨regsOk_offS, rfl, rfl, rfl, rfl, (setWpReady_rst paramsS (.inr rfl)).1⟩

/-- T1 in the DATA window. -/
def withT1 : State := { rstA with data := Memory.writeBytes [] 0 tableTextT1 }

/-- V-TBL-1, V-TBL-11b. -/
theorem test_hyp_SetTableInstallsTheParsedTable :
    let s := started withT1 .setTable (arg 74)
    AtStart s (arg 74) ∧ Unlocked s ∧ s.suspended = false ∧ (arg 74).a0.toNat ≤ 8192 ∧
    parse s.params (s.data.readBytes 0 (arg 74).a0.toNat) s.env.allocOk = .ok tableT1 ∧ s.dptcActive = false ∧
    s.mbPending = false ∧ s.rx = .idle ∧ s.dvfsActive = false ∧ rstS.params.hasSdma = true :=
  ⟨⟨_, rfl⟩, ⟨rfl, rfl, rfl, rfl⟩, rfl, by decide, eq_ok (by decide +kernel), rfl, rfl, rfl, rfl, rfl⟩

/-- V-TBL-7a, V-TBL-7c's length, V-TBL-7b, V-TBL-9a, V-TBL-10a. -/
theorem test_hyp_FailedSetTableLeavesTheTable :
    (∀ a, (started rstA .setTable a).seq = .run { word := 0x20, args := a, todo := [.start] }) ∧
    8192 < (arg 8193).a0.toNat ∧ (arg 8192).a0.toNat ≤ 8192 ∧
    parse rstA.params (rstA.data.readBytes 0 0) rstA.env.allocOk = .error .parseError ∧
    parse withT1.params (withT1.data.readBytes 0 74) false = .error .allocFailed ∧
    parse withT1.params (withT1.data.readBytes 0 74) true = .ok tableT1 :=
  ⟨fun _ => rfl, by decide, by decide, eq_error (by decide), eq_error (by decide +kernel), eq_ok (by decide +kernel)⟩

/-- A table of 140 points, whose text does not fit the window. -/
def bigTable : Table :=
  { wpNum := 140, currWp := 0, wp := List.replicate 140 [0xFFFFFFFF], dvfsStateNum := 1, freq := [],
    dcvr := [List.replicate 140 ⟨0xFFFFFFFF, 0xFFFFFFFF, 0xFFFFFFFF, 0xFFFFFFFF⟩] }

/-- V-TBL-16; a text too long; W5. -/
theorem test_hyp_GetTableWritesTheTextOnly :
    rstA.data.wf = true ∧ ({ rstA with table := none } : State).table = none ∧
    8192 < (serialize paramsA bigTable).length ∧ rstA.table = some tableT1 ∧
    (serialize paramsA tableT1).length ≤ 8192 := ⟨rfl, rfl, by decide +kernel, by decide, by decide⟩

theorem test_hyp_ParseGivesShapedTablesOrTheTwoErrors :
    parse paramsA tableTextT1 true = .ok tableT1 ∧ parse paramsA tableTextT1 false = .error .allocFailed ∧
    parse paramsA [] false = .error .parseError :=
  ⟨eq_ok (by decide), eq_error (by decide), eq_error (by decide)⟩

/-- T1's table; and a table with FREQ lines, two frequency states and the largest words. -/
theorem test_hyp_SerializedTablesParseBack :
    tableOk paramsA tableT1 = true ∧ tableT1.currWp = 0 ∧ parse paramsA tableTextT1 true = .ok tableT1 ∧
    tableOk { paramsA with hasFreqLines := true, nFreqStates := 2, wpValues := 4 }
      { wpNum := 1, currWp := 0, wp := [[0, 1, 2, 0xFFFFFFFF]], dvfsStateNum := 2,
        freq := [⟨4294967295, 0, ⟨1, 2, 3, 4⟩, 5⟩, ⟨6, 7, ⟨8, 9, 10, 11⟩, 12⟩],
        dcvr := [[⟨1, 2, 3, 4⟩], [⟨5, 6, 7, 0xFFFFFFFF⟩]] } = true :=
  ⟨by decide, rfl, eq_ok (by decide), by decide⟩

/-- V-LOG-3a's ring. -/
theorem test_hyp_LogReadDrainsTheOldestRecords :
    let l : LogRing := { buf := [none, some ⟨1, 0, 0, 0⟩, some ⟨2, 0, 0, 0⟩, some ⟨3, 0, 0, 0⟩], head := 0, tail := 1 }
    let s := started { rstA with log := l } .logRead (arg 2)
    AtStart s (arg 2) ∧ Unlocked s ∧ s.suspended = false ∧ LogOk s ∧ s.data.wf = true ∧
    min (arg 2).a0.toNat (min ((l.head + 4 - l.tail) % 4) 512) = 2 ∧
    l.buf[(l.tail + 1) % 4]? = some (some ⟨2, 0, 0, 0⟩) :=
  ⟨⟨_, rfl⟩, ⟨rfl, rfl, rfl, rfl⟩, rfl, by unfold LogOk; decide, rfl, by decide, rfl⟩

theorem test_hyp_LogKeepsTheNewestEntries : 2 ≤ 2 ∧ 2 ≤ paramsA.logCapacity := by decide

/-- V-RST-1 and V-RST-3: a default table that parses, and one that does not. -/
theorem test_hyp_ResetLeavesTheStatedValues :
    parse paramsA paramsA.defaultTableText Env.quiet.allocOk = .ok tableT1 ∧ tableT1.wp[0]? = some [0x10] ∧
    2 ≤ paramsA.logCapacity ∧ rstA.table = some tableT1 ∧
    parse paramsA [] true = .error .parseError ∧
    (State.resetIn { paramsA with defaultTableText := [] } Env.quiet).table = none ∧
    (withInputs (started rstA .lpmEnter noArgs) [.reset]).env.inputs = .reset :: [] :=
  ⟨eq_ok (by decide), rfl, by decide, by decide, eq_error (by decide), rfl, rfl⟩

theorem test_hyp_ResetMeetsTheInvariants : paramsA.bootOk ∧ paramsS.bootOk :=
  ⟨⟨by decide, Nat.zero_lt_one⟩, by decide, Nat.zero_lt_one⟩

/-- A step that writes reserved bits, in a state that has none set. -/
theorem test_hyp_EveryStepKeepsReservedBitsZero :
    let s := withInputs rstA [hostW 0x000 0xFFFFFFFF]
    RegsOk s ∧ ∃ t, step s = .next t := ⟨regsOk_plainA, _, rfl⟩

/-- A step that starts a command, and one inside a lock. -/
theorem test_hyp_EveryStepKeepsBusyAndTheLocks :
    (let s := withInputs rstA [hostW 0x100 2]
     BusyOk s ∧ LocksOk s ∧ ∃ t, step s = .next t) ∧
    (let s := { atLines rstA noArgs [.ret 0 0] with dvfsLock := .held .seq }
     BusyOk s ∧ LocksOk s ∧ ∃ t, step s = .next t) :=
  ⟨⟨by unfold BusyOk; decide, ⟨rfl, rfl, .inl rfl⟩, _, rfl⟩,
    by unfold BusyOk; decide, ⟨rfl, rfl, .inr ⟨rfl, by simp [atLines]⟩⟩, _, rfl⟩

/-- A state with a table, a command inside `set_wp` and a reaction waiting to re-arm. -/
def midway : State :=
  { atLines rstA noArgs [.op (.thresholds (some 1)), .op (.pmicGet .primary 1), .op .logInsert, .retCurrWp] with
    table := some { tableT1 with currWp := 1 }, rx := .run [.rearm] }

theorem tableInv_midway : TableInv midway := by
  refine ⟨?_, by decide, ?_, ?_⟩
  · intro t h; cases h; decide
  · intro job h l hl
    cases h
    have : l = .op (.thresholds (some 1)) ∨ l = .op (.pmicGet .primary 1) ∨ l = .op .logInsert ∨ l = .retCurrWp := by
      simpa using hl
    rcases this with rfl | rfl | rfl | rfl
    · exact ⟨_, rfl, by decide⟩
    · exact ⟨_, rfl, by decide⟩
    · trivial
    · trivial
  · intro todo h l hl
    cases h
    have : l = .rearm := by simpa using hl
    subst this
    trivial

theorem test_hyp_EveryStepKeepsTheTableInvariants :
    1 ≤ midway.params.nFreqStates ∧ TableInv midway ∧ ∃ t, step midway = .next t :=
  ⟨by decide, tableInv_midway, _, rfl⟩

theorem test_hyp_TableInvariantsExcludeRangeFaults : TableInv midway ∧ midway.params.indexOk :=
  ⟨tableInv_midway, Nat.zero_lt_one⟩

theorem test_hyp_EveryStepKeepsTheLogTheWindowAndTheParameters :
    let s := withInputs rstA [.host (.write (0 + 0x1000) 1 0x5A)]
    LogOk s ∧ s.data.wf = true ∧ ∃ t, step s = .next t := ⟨by unfold LogOk; decide, rfl, _, rfl⟩

/-- V-ENC-4's clear; a DPTCCR write that keeps CAUSE and one that clears it. -/
theorem test_hyp_DptccrAndPsrWritesActFieldByField :
    (∀ ins, (withInputs rstA ins).env.hostStuck = false ∧ (withInputs rstA ins).env.inputs = ins) ∧
    (nextOf (step (withInputs { rstA with psr := 0x3 } [hostW 0x120 0x2]))).map (·.psr) = some 0x1 ∧
    [0x53, 0x50].map (fun v : Word =>
      (nextOf (step (withInputs { rstA with dptccr := 0x059 } [hostW 0x020 v]))).map (·.dptccr)) =
      [some 0x5B, some 0x50] :=
  ⟨fun _ => ⟨rfl, rfl⟩, by decide, by decide⟩

/-- A turn of SEQ with the HOST stuck; and a HOST that writes CMD while a command runs. -/
theorem test_hyp_StuckHostHoldsUpNoOtherAgent :
    (let s := withInputs (started rstA .sysSuspend noArgs) [.seq]
     (∀ a rest, s.env.inputs ≠ .host a :: rest) ∧ ∃ t, step s = .next t ∧ t.suspended = true) ∧
    (let s := withInputs (started rstA .lpmEnter noArgs) [hostW 0x100 2]
     s.env.inputs = .host (.write (0 + 0x100) 4 2) :: [] ∧ psrBusy s.psr = true) :=
  ⟨⟨fun a rest h => (nomatch h), _, rfl, rfl⟩, rfl, by decide⟩

end Sys2Proof.Tests
end

section
/-! SUPPORT. What one step moves, by part of the state: `step_csrMove` for the registers of the CSR, `step_move` for
everything else. Each invariant of 10_state goes by one of the two. -/

namespace Sys2Proof.Machine

/-! ### The hardware's steps -/

/-- ENV_DPTC changes nothing, or raises a cause where the block is enabled, shows none and has no SDMA (10_state
R33). -/
theorem envDptc_cases (c : Cause) (s : State) :
    envDptc c s = s ∨ (dptcEn s.dptccr = true ∧ dptcCause s.dptccr = 0 ∧ s.params.hasSdma = false ∧
      envDptc c s = { s with dptccr := withCause s.dptccr c }) := by
  unfold envDptc
  split
  · rename_i h
    simp only [Bool.and_eq_true, beq_iff_eq, Bool.not_eq_true'] at h
    obtain ⟨⟨hen, hcause⟩, hS⟩ := h
    exact .inr ⟨hen, hcause, hS, rfl⟩
  · exact .inl rfl

theorem sdmaEnabled_iff {s : State} :
    sdmaEnabled s = true ↔ s.params.hasSdma = true ∧ dptcEn s.dptccr = true ∧ dptcVoltValid s.dptccr = true ∧
      dptcCause s.dptccr = 0 := by
  simp [sdmaEnabled, and_assoc]

/-- ENV_SDMA changes nothing, or selects a working point whose cell is there, where it is enabled (10_state R35). -/
theorem envSdma_cases (w : Nat) (c : Cause) (s : State) :
    envSdma w c s = s ∨ ∃ t q, s.table = some t ∧ tableCell t s.currentFreqIndex w = some q ∧
      s.params.hasSdma = true ∧ dptcEn s.dptccr = true ∧ dptcVoltValid s.dptccr = true ∧ dptcCause s.dptccr = 0 ∧
      envSdma w c s = { s with dcvr := q, table := some { t with currWp := w }
                               dptccr := withCause (s.dptccr &&& ~~~0x100) c } := by
  unfold envSdma
  split
  · exact .inl rfl
  · rename_i t ht
    split
    · exact .inl rfl
    · rename_i q hq
      split
      · obtain ⟨hS, hen, hvv, hcause⟩ := sdmaEnabled_iff.1 ‹_›
        exact .inr ⟨t, q, ht, hq, hS, hen, hvv, hcause, rfl⟩
      · exact .inl rfl

/-- ENV_WAKE changes nothing, or moves SEQ past the wait it is in (42 R176). -/
theorem envWake_cases (s : State) :
    envWake s = s ∨ ∃ job rest, s.seq = .run job ∧ job.todo = .wfi :: rest ∧
      envWake s = { s with seq := .run { job with todo := rest } } := by
  unfold envWake
  split
  · rename_i job hj
    split
    · rename_i rest ht
      exact .inr ⟨job, rest, hj, ht, rfl⟩
    · exact .inl rfl
  · exact .inl rfl

/-! ### The registers of the CSR -/

/-- The registers of the CSR (10_state R22), with the parameters that say which of their bits exist. -/
structure CsrFile where
  params : Params
  div : Word
  mpll : Word
  tpll : Word
  pllsr : Word
  lpmcr : Word
  inten : Word
  dptccr : Word
  dcvr : Quad
  dvfscr : Word

/-- The registers of the CSR in a state. -/
def State.csrFile (s : State) : CsrFile :=
  ⟨s.params, s.div, s.mpll, s.tpll, s.pllsr, s.lpmcr, s.inten, s.dptccr, s.dcvr, s.dvfscr⟩

/-- A register write does not look at the coming steps. -/
theorem writeCsr_withInputs (s : State) (ins : List Input) (r : Csr) (v : Word) :
    (withInputs s ins).writeCsr r v = withInputs (s.writeCsr r v) ins := by
  cases r with
  | div =>
    simp only [State.writeCsr, State.writeDiv, apply_ite (withInputs · ins)]
    rfl
  | _ => rfl

theorem writePort_csrFile (s : State) (r : PortReg) (v : Word) :
    (s.writePort r v).csrFile = s.csrFile := by
  cases r with
  | cmd => simp only [State.writePort, State.writeCmd]; split <;> rfl
  | _ => rfl

/-- The registers are as they were, or as a write of one register leaves them. -/
def CsrWritten (s t : State) : Prop :=
  t.csrFile = s.csrFile ∨ ∃ r v, t.csrFile = (s.writeCsr r v).csrFile

theorem CsrWritten.of_withInputs {s t : State} {ins : List Input} (h : CsrWritten (withInputs s ins) t) :
    CsrWritten s t := by
  rcases h with h | ⟨r, v, h⟩
  · exact .inl h
  · rw [writeCsr_withInputs] at h
    exact .inr ⟨r, v, h⟩

theorem irqHandler_csrWritten (s : State) : CsrWritten s s.irqHandler := by
  unfold State.irqHandler
  split
  · exact .inl rfl
  · exact .inr ⟨.dptccr, irqDptccr s.dptccr, rfl⟩

/-- A line of a shared procedure writes at most one register. -/
theorem OpEffect.csrWritten {s s' : State} {o : Op} {more : List Op} (h : OpEffect s o s' more) :
    CsrWritten s s' := by
  cases h with
  | modify => exact .inr ⟨_, _, rfl⟩
  | write => exact .inr ⟨_, _, rfl⟩
  | rcEnable => exact .inr ⟨_, _, rfl⟩
  | thresholds => exact .inr ⟨.dcvr0, _, rfl⟩
  | _ => exact .inl rfl

theorem SeqEffect.csrWritten {s s' : State} {a : Args} {l : SeqLine} {more : List SeqLine}
    (h : SeqEffect s a l s' more) : CsrWritten s s' := by
  cases h with
  | op ho => exact ho.csrWritten
  | _ => exact .inl rfl

theorem SeqEnd.csrFile_eq {s s' : State} {l : SeqLine} (h : SeqEnd s l s') : s'.csrFile = s.csrFile := by
  cases h <;> rfl

theorem RxEffect.csrWritten {s s' : State} {l : RxLine} {more : List RxLine} (h : RxEffect s l s' more) :
    CsrWritten s s' := by
  cases h with
  | op ho => exact ho.csrWritten
  | rearm => exact .inl rfl

theorem SeqTurn.csrWritten {s t : State} {job : Job} {todo : List SeqLine} (h : SeqTurn s job todo t) :
    CsrWritten s t := by
  cases h with
  | still => exact .inl rfl
  | line _ he => exact he.csrWritten
  | last _ he => exact .inl he.csrFile_eq

/-- What one step does to the registers of the CSR: one write, by whatever agent, or a step of the hardware. -/
inductive CsrMove (s : State) : State → Prop
  | written {t} : CsrWritten s t → CsrMove s t
  | pllLock {rest} : s.env.inputs = .pllLock :: rest → CsrMove s (envPllLock (withInputs s rest))
  | pllDone {rest} : s.env.inputs = .pllDone :: rest → CsrMove s (envPllDone (withInputs s rest))
  | cause {c rest} : s.env.inputs = .dptcCause c :: rest → CsrMove s (envDptc c (withInputs s rest))
  | sdma {w c rest} : s.env.inputs = .sdma w c :: rest → CsrMove s (envSdma w c (withInputs s rest))
  | reset {rest} : s.env.inputs = .reset :: rest → CsrMove s (withInputs s rest).reboot

theorem envWake_csrFile (s : State) : (envWake s).csrFile = s.csrFile := by
  obtain h | ⟨job, rest, -, -, h⟩ := envWake_cases s <;> rw [h]
  rfl

theorem step_csrMove {s t : State} (h : step s = .next t) : CsrMove s t := by
  cases step_next h with
  | irq => exact .written (irqHandler_csrWritten _).of_withInputs
  | seq _ _ ht => exact .written ht.csrWritten.of_withInputs
  | rxLine _ _ he => exact .written (.of_withInputs (s := s) he.csrWritten)
  | hostCsr => exact .written (CsrWritten.of_withInputs (.inr ⟨_, _, rfl⟩))
  | hostPort => exact .written (.inl (writePort_csrFile _ _ _))
  | pllLock hi => exact .pllLock hi
  | pllDone hi => exact .pllDone hi
  | dptcCause hi => exact .cause hi
  | sdma hi => exact .sdma hi
  | wake => exact .written (.inl (envWake_csrFile _))
  | reset hi => exact .reset hi
  | _ => exact .written (.inl rfl)

/-! ### Everything else -/

/-- At most the registers of the CSR, the mailbox and the world outside differ. -/
structure OnlyCsr (s t : State) : Prop where
  params : t.params = s.params
  result : t.result = s.result
  psr : t.psr = s.psr
  data : t.data = s.data
  currentFreqIndex : t.currentFreqIndex = s.currentFreqIndex
  table : t.table = s.table
  log : t.log = s.log
  regLock : t.regLock = s.regLock
  dvfsLock : t.dvfsLock = s.dvfsLock
  logMutex : t.logMutex = s.logMutex
  seq : t.seq = s.seq
  rx : t.rx = s.rx

theorem irqHandler_onlyCsr (s : State) (ins : List Input) : OnlyCsr s (withInputs s ins).irqHandler := by
  unfold State.irqHandler
  split <;> constructor <;> rfl

theorem writeCsr_onlyCsr (s : State) (ins : List Input) (r : Csr) (v : Word) :
    OnlyCsr s ((withInputs s ins).writeCsr r v) := by
  rw [writeCsr_withInputs]
  constructor <;> simp [withInputs]

theorem envPllLock_onlyCsr (s : State) (ins : List Input) : OnlyCsr s (envPllLock (withInputs s ins)) := by
  unfold envPllLock
  split <;> constructor <;> rfl

theorem envPllDone_onlyCsr (s : State) (ins : List Input) : OnlyCsr s (envPllDone (withInputs s ins)) := by
  unfold envPllDone
  split <;> constructor <;> rfl

theorem envDptc_onlyCsr (s : State) (ins : List Input) (c : Cause) : OnlyCsr s (envDptc c (withInputs s ins)) := by
  unfold envDptc
  split <;> constructor <;> rfl

/-- The end of a command: BUSY clear, SEQ idle, a result that 60 R320 allows, dvfs_lock released if SEQ held it, and
everything the invariants speak of as it was. -/
structure CommandOver (s t : State) : Prop where
  params : t.params = s.params
  result : t.result = 0 ∨ ∃ e : Err, t.result = e.result
  psr : t.psr = s.psr &&& ~~~0x1
  data : t.data = s.data
  currentFreqIndex : t.currentFreqIndex = s.currentFreqIndex
  table : t.table = s.table
  log : t.log = s.log
  regLock : t.regLock = s.regLock
  dvfsLock : t.dvfsLock = if s.dvfsLock = .held .seq then .free else s.dvfsLock
  logMutex : t.logMutex = s.logMutex
  seq : t.seq = .idle
  rx : t.rx = s.rx

theorem CommandOver.of_withInputs {s t : State} {ins : List Input} (h : CommandOver (withInputs s ins) t) :
    CommandOver s t :=
  ⟨h.params, h.result, h.psr, h.data, h.currentFreqIndex, h.table, h.log, h.regLock, h.dvfsLock, h.logMutex, h.seq,
    h.rx⟩

theorem finish_over (s : State) (v0 v1 : Word) : CommandOver s (s.finish v0 v1) :=
  ⟨rfl, .inl rfl, rfl, rfl, rfl, rfl, rfl, rfl, rfl, rfl, rfl, rfl⟩

theorem raiseErr_over (s : State) (e : Err) : CommandOver s (s.raiseErr e) :=
  ⟨rfl, .inr ⟨e, rfl⟩, rfl, rfl, rfl, rfl, rfl, rfl, rfl, rfl, rfl, rfl⟩

theorem SeqEnd.over {s t : State} {l : SeqLine} (h : SeqEnd s l t) : CommandOver s t := by
  cases h with
  | busy => exact raiseErr_over ..
  | suspended => exact ⟨rfl, .inl rfl, rfl, rfl, rfl, rfl, rfl, rfl, rfl, rfl, rfl, rfl⟩
  | ret => exact finish_over ..
  | retCurrWp => exact finish_over ..
  | raised => exact raiseErr_over ..

/-- What one step does outside the registers of the CSR. -/
inductive Move (s : State) : State → Prop
  | onlyCsr {t} : OnlyCsr s t → Move s t
  | seqLine {ins job i l rest s' more} : s.seq = .run job → linesOf i (withInputs s ins) job = l :: rest →
      SeqEffect (withInputs s ins) job.args l s' more →
      Move s { s' with seq := .run { job with todo := more ++ rest } }
  | commandOver {t} : s.seq ≠ .idle → CommandOver s t → Move s t
  | rxTake {ins} :
      Move s { withInputs s ins with mbPending := false, rx := .run (reactionLines s.params s.mbCause) }
  | rxLine {ins l rest s' more} : s.rx = .run (l :: rest) → RxEffect (withInputs s ins) l s' more →
      Move s { s' with rx := .run (more ++ rest) }
  | rxEnd {ins} : Move s { withInputs s ins with rx := .idle }
  | hostPort {ins r v} : Move s ((withInputs s ins).writePort r v)
  | hostData {ins off bs} : Move s { withInputs s ins with data := s.data.writeBytes off bs }
  | sdma {w c rest} : Move s (envSdma w c (withInputs s rest))
  | wake {rest} : Move s (envWake (withInputs s rest))
  | reset {rest} : Move s (withInputs s rest).reboot

theorem OnlyCsr.of_world (s : State) (e : Env) : OnlyCsr s { s with env := e } :=
  ⟨rfl, rfl, rfl, rfl, rfl, rfl, rfl, rfl, rfl, rfl, rfl, rfl⟩

theorem step_move {s t : State} (h : step s = .next t) : Move s t := by
  cases step_next h with
  | still => exact .onlyCsr (.of_world ..)
  | hostRead => exact .onlyCsr (.of_world ..)
  | world => exact .onlyCsr (.of_world ..)
  | irq => exact .onlyCsr (irqHandler_onlyCsr ..)
  | hostCsr => exact .onlyCsr (writeCsr_onlyCsr ..)
  | pllLock => exact .onlyCsr (envPllLock_onlyCsr ..)
  | pllDone => exact .onlyCsr (envPllDone_onlyCsr ..)
  | dptcCause => exact .onlyCsr (envDptc_onlyCsr ..)
  | seq hj _ ht =>
    have hrun : s.seq ≠ .idle := by simp [hj]
    cases ht with
    | still => exact .onlyCsr (.of_world ..)
    | line hl he => exact .seqLine hj hl he
    | last _ he => exact .commandOver hrun he.over.of_withInputs
  | unknown hj => exact .commandOver (by simp [hj]) (raiseErr_over ..).of_withInputs
  | rxTake => exact .rxTake
  | rxLine _ hr he => exact .rxLine hr he
  | rxEnd => exact .rxEnd
  | hostPort => exact .hostPort
  | hostData => exact .hostData
  | sdma => exact .sdma
  | wake => exact .wake
  | reset => exact .reset

end Sys2Proof.Machine
end

section
/-! SUPPORT. The table invariants of 10_state R47 and what keeps them: the tables `parse` gives, the lines a command
or a reaction goes on with, and the effect of one line. -/

namespace Sys2Proof.Machine

/-! ### The tables that parse gives -/

theorem hexTokens_length {ts : List Token} {vs : List Word} (h : hexTokens ts = some vs) : vs.length = ts.length := by
  induction ts generalizing vs with
  | nil => cases h; rfl
  | cons t ts ih =>
    simp only [hexTokens] at h
    split at h
    · rename_i hs; cases h; simp [ih hs]
    · cases h

/-- A WP line has as many raw values as the variant says (45 R255). -/
theorem wpLine_length {n : Nat} {ts : List Token} {vs : List Word} (h : wpLine n ts = some vs) : vs.length = n := by
  cases ts with
  | nil => cases h
  | cons k ts =>
    simp only [wpLine] at h
    split at h
    · rename_i hk; rw [hexTokens_length h]; exact hk.2
    · cases h

/-- Whatever the line reader gives of every line holds of everything that is read. -/
theorem readLines_forall {α : Type} {P : α → Prop} {f : List Token → Option α} (hf : ∀ l a, f l = some a → P a)
    {ls rest : List (List Token)} {n : Nat} {as : List α} (h : readLines f ls n = some (as, rest)) :
    ∀ a ∈ as, P a := by
  obtain ⟨-, done, -, hd⟩ := readLines_eq_some h
  intro a ha
  have hmem : some a ∈ done.map f := hd ▸ List.mem_map_of_mem ha
  obtain ⟨l, -, hl⟩ := List.mem_map.1 hmem
  exact hf l a hl

/-- A body that parses gives a table of the variant's shape (45 R254 to R258). -/
theorem parseBody_tableOk {p : Params} {n : Nat} {ls : List (List Token)} {t : Table} (h1 : 1 ≤ n)
    (h2 : n ≤ 4294967295) (h : parseBody p n ls = some t) : tableOk p t = true := by
  obtain ⟨wps, fs, cs, l1, l2, hw, hf, hc, rfl⟩ := parseBody_eq_some h
  refine tableOk_iff.2 ⟨h1, h2, h1, (readLines_eq_some hw).1, readLines_forall (fun _ _ => wpLine_length) hw, rfl,
    (readLines_eq_some hf).1, length_rows .., ?_⟩
  exact fun row hr => length_of_mem_rows (readLines_eq_some hc).1.ge hr

/-- A parsed table has the variant's shape (45 R259). -/
theorem parse_tableOk {p : Params} {text : List Byte} {ok : Bool} {t : Table} (h : parse p text ok = .ok t) :
    tableOk p t = true := by
  obtain ⟨-, he⟩ | ⟨hdr, ls, n, -, hn, ⟨-, he⟩ | ⟨-, -, he⟩ | ⟨-, t', hb, ht⟩⟩ := parse_cases p text ok
  · rw [he] at h; cases h
  · rw [he] at h; cases h
  · rw [he] at h; cases h
  · rw [ht] at h; cases h
    obtain ⟨h1, h2⟩ := headerLine_bound hn
    exact parseBody_tableOk h1 h2 hb

/-- The table after reset, if there is one, has the variant's shape (70 R352, R353). -/
theorem tableReset_tableOk {p : Params} {ok : Bool} {t : Table} (h : tableReset p ok = some t) :
    tableOk p t = true := by
  unfold tableReset at h
  split at h
  · rename_i hp; cases h; exact parse_tableOk hp
  · cases h

theorem tableOk_currWp {p : Params} {t : Table} (h : tableOk p t = true) : t.currWp < t.wpNum := by
  obtain ⟨-, -, hw, -⟩ := tableOk_iff.1 h
  exact hw

theorem tableOk_dvfsStateNum {p : Params} {t : Table} (h : tableOk p t = true) :
    t.dvfsStateNum = p.nFreqStates := by
  obtain ⟨-, -, -, -, -, hn, -⟩ := tableOk_iff.1 h
  exact hn

/-- A cell that is there is one of a working point of the table. -/
theorem tableCell_lt {t : Table} {f w : Nat} {q : Quad} (h : tableCell t f w = some q) : w < t.wpNum := by
  unfold tableCell at h
  split at h
  · rename_i hw; exact hw.2
  · cases h

/-! ### The lines -/

/-- A fault that a pure line may stop with, the three range faults excluded (60 R325). -/
def StopOk (f : Fault) : Prop := f ≠ .thresholdsOutOfRange ∧ f ≠ .wpOutOfRange ∧ f ≠ .freqIndexOutOfRange

/-- Every line of a list meets its condition, the list being all that SEQ still has to run. -/
def SeqLinesOk (s : State) (ls : List SeqLine) : Prop := ∀ l ∈ ls, SeqLineOk s ls l

/-- A line whose condition does not look at the other lines: all but `readText` and `swap`. -/
def FreeLineOk (s : State) : SeqLine → Prop
  | .op o => OpOk s o
  | .assign (.freqIndex n) => n < s.params.nFreqStates
  | .readText _ => False
  | .swap _ => False
  | .stop f => StopOk f
  | _ => True

theorem FreeLineOk.seqLineOk {s : State} {ls : List SeqLine} {l : SeqLine} (h : FreeLineOk s l) :
    SeqLineOk s ls l := by
  cases l with
  | op o => exact h
  | stop f => exact h
  | readText n => exact h.elim
  | swap t => exact h.elim
  | assign a =>
    cases a with
    | freqIndex n => exact h
    | _ => trivial
  | _ => trivial

/-- Lines none of which looks at the others. -/
def FreeLinesOk (s : State) (ls : List SeqLine) : Prop := ∀ l ∈ ls, FreeLineOk s l

theorem FreeLinesOk.seqLinesOk {s : State} {ls : List SeqLine} (h : FreeLinesOk s ls) : SeqLinesOk s ls :=
  fun l hl => (h l hl).seqLineOk

@[simp] theorem freeLinesOk_nil (s : State) : FreeLinesOk s [] := by simp [FreeLinesOk]

@[simp] theorem freeLinesOk_cons {s : State} {l : SeqLine} {ls : List SeqLine} :
    FreeLinesOk s (l :: ls) ↔ FreeLineOk s l ∧ FreeLinesOk s ls := by simp [FreeLinesOk]

@[simp] theorem freeLinesOk_append {s : State} {ls ms : List SeqLine} :
    FreeLinesOk s (ls ++ ms) ↔ FreeLinesOk s ls ∧ FreeLinesOk s ms := by simp [FreeLinesOk, or_imp, forall_and]

@[simp] theorem freeLinesOk_ops {s : State} {os : List Op} :
    FreeLinesOk s (os.map .op) ↔ ∀ o ∈ os, OpOk s o := by simp [FreeLinesOk, FreeLineOk]

@[simp] theorem freeLineOk_op {s : State} {o : Op} : FreeLineOk s (.op o) ↔ OpOk s o := Iff.rfl
@[simp] theorem freeLineOk_stop {s : State} {f : Fault} : FreeLineOk s (.stop f) ↔ StopOk f := Iff.rfl
@[simp] theorem freeLineOk_freqIndex {s : State} {n : Nat} :
    FreeLineOk s (.assign (.freqIndex n)) ↔ n < s.params.nFreqStates := Iff.rfl
@[simp] theorem freeLineOk_raise (s : State) (e : Err) : FreeLineOk s (.raise e) := trivial
@[simp] theorem freeLineOk_ret (s : State) (v0 v1 : Word) : FreeLineOk s (.ret v0 v1) := trivial
@[simp] theorem freeLineOk_read (s : State) (r : Csr) (k : Cont) : FreeLineOk s (.read r k) := trivial
@[simp] theorem freeLineOk_readClock (s : State) (k : ClockUse) : FreeLineOk s (.readClock k) := trivial
@[simp] theorem freeLineOk_acquire (s : State) : FreeLineOk s .acquireDvfs := trivial
@[simp] theorem freeLineOk_poll (s : State) (b : PollBit) : FreeLineOk s (.poll b) := trivial
@[simp] theorem opOk_modify (s : State) (r : Csr) (m v : Word) : OpOk s (.modify r m v) := trivial
@[simp] theorem opOk_write (s : State) (r : Csr) (v : Word) : OpOk s (.write r v) := trivial

/-! ### The lines a plan or a read goes on with -/

theorem voltageOps_ok {s : State} {t : Table} {w : Nat} (ht : s.table = some t) (hw : w < t.wpNum) :
    ∀ o ∈ voltageOps s.params w, OpOk s o := by
  intro o ho
  simp only [voltageOps, List.mem_cons] at ho
  obtain rfl | ho := ho
  · exact ⟨t, ht, hw⟩
  · split at ho
    · rw [List.mem_singleton.1 ho]; exact ⟨t, ht, hw⟩
    · cases ho

theorem stopOk_of_pllHz {p : Params} {turbo : Bool} {r : Word} {f : Fault} (h : pllHz p turbo r = .error f) :
    StopOk f := by simp [pllHz_error h, StopOk]

theorem adjustLines_free {s : State} {a b c : Nat} {next : List SeqLine} (h : FreeLinesOk s next) :
    FreeLinesOk s (adjustLines a b c next) := by
  unfold adjustLines
  split
  · rename_i f hf; simp [dividers_error hf, StopOk]
  · simp
  · simpa using h

theorem stopOk_of_cpuFault {f : Fault} (h : f = .pllFieldReserved ∨ f = .brmmReserved ∨ f = .brmmDivisorZero) :
    StopOk f := by
  rcases h with rfl | rfl | rfl <;> simp [StopOk]

theorem stopOk_of_pllScale {p : Params} {turbo : Bool} {q : Nat} {r : Word} {f : Fault}
    (h : pllScale p turbo q r = .error f) : StopOk f := by
  rcases pllScale_error h with rfl | rfl | rfl <;> simp [StopOk]

theorem pllWriteLines_free (s : State) (turbo : Bool) (w d : Word) : FreeLinesOk s (pllWriteLines turbo w d) := by
  unfold pllWriteLines
  split <;> simp

theorem pllscaleDivLines_free (s : State) (p : Params) (a : Args) (turbo : Bool) (r d : Word) :
    FreeLinesOk s (pllscaleDivLines p a turbo r d) := by
  have hw := pllWriteLines_free s turbo
  unfold pllscaleDivLines
  split
  · rename_i f hf; simpa using stopOk_of_pllScale hf
  · split
    · exact adjustLines_free (by simp [hw])
    · simpa [hw] using adjustLines_free (by simp)

theorem intscaleDivLines_free (s : State) (a : Args) (pll : Nat) (d : Word) :
    FreeLinesOk s (intscaleDivLines a pll d) := by
  unfold intscaleDivLines
  split
  · simp [brmmLines]
  · exact adjustLines_free (by simp)

theorem intscalePllLines_free (s : State) (p : Params) (a : Args) (turbo : Bool) (r : Word) :
    FreeLinesOk s (intscalePllLines p a turbo r) := by
  unfold intscalePllLines
  split
  · rename_i f hf; simpa using stopOk_of_pllHz hf
  · split <;> simp

theorem relockPllsrLines_free (s : State) (a : Args) (v : Word) : FreeLinesOk s (relockPllsrLines a v) := by
  unfold relockPllsrLines
  repeat' split
  all_goals simp

theorem relockPllLines_free (s : State) (p : Params) (a : Args) (r : Word) :
    FreeLinesOk s (relockPllLines p a r) := by
  unfold relockPllLines
  split
  · rename_i f hf; simpa using stopOk_of_pllHz hf
  · split
    · simp [StopOk]
    · split <;> simp

/-- The lines after a read name no working point, no index and no table. -/
theorem contResume_free (s : State) (k : Cont) (p : Params) (a : Args) (v : Word) :
    FreeLinesOk s (k.resume p a v) := by
  cases k with
  | intPllsr => simp [Cont.resume]
  | intPll turbo => exact intscalePllLines_free s p a turbo v
  | intDiv pll => exact intscaleDivLines_free s a pll v
  | intDivAgain pll => simp [Cont.resume, brmmLines]
  | plsPllsr => simp [Cont.resume]
  | plsPll turbo => simp [Cont.resume]
  | plsDiv turbo r => exact pllscaleDivLines_free s p a turbo r v
  | rlkPllsr => exact relockPllsrLines_free s a v
  | rlkPll => exact relockPllLines_free s p a v
  | lpmProbe =>
    simp only [Cont.resume, lpmProbeLines]
    split <;> simp [FreeLineOk]

theorem clockLines_free {s : State} {clock : Except Fault Nat} {use : Nat → SeqLine}
    (he : ∀ f, clock = .error f → StopOk f) (hu : ∀ hz, FreeLineOk s (use hz)) :
    FreeLinesOk s (clockLines clock use) := by
  unfold clockLines
  split
  · simpa using he _ rfl
  · simpa using hu _

/-- The lines after the one-step read of the clock registers: a fault of the clock model is no range fault. -/
theorem clockResume_free (s : State) (k : ClockUse) (p : Params) (turbo : Bool) (r d : Word) :
    FreeLinesOk s (k.resume p turbo r d) := by
  cases k with
  | report => exact clockLines_free (fun f hf => stopOk_of_cpuFault (cpuPoint_error hf)) (fun _ => trivial)
  | freqIndex => exact clockLines_free (fun f hf => stopOk_of_cpuFault (cpuHz_error hf)) (fun _ => trivial)

theorem lpmLines_free (s : State) (mode : Nat) (saved : Bool) : FreeLinesOk s (lpmLines mode saved) := by
  have hm : FreeLinesOk s (lpmModeLines mode) := by
    simp only [lpmModeLines, freeLinesOk_append]
    refine ⟨⟨⟨?_, ?_⟩, ?_⟩, ?_⟩ <;> split <;> simp
  simp [lpmLines, hm, FreeLineOk]

/-- SET_TABLE goes on with a swap of a well-shaped table and its return, or with a raise (45 R263). -/
theorem parsedLines_ok (s : State) (text : List Byte) (ok : Bool) :
    SeqLinesOk s (parsedLines s.params text ok) := by
  unfold parsedLines
  split
  · exact FreeLinesOk.seqLinesOk (by simp)
  · rename_i t ht
    have hswap : SeqLineOk s [.swap t, .ret 0 0] (.swap t) := ⟨parse_tableOk ht, by simp⟩
    simpa [SeqLinesOk] using ⟨hswap, trivial⟩

/-! ### The state the lines speak of -/

/-- The installed table has its shape and the frequency index is in range: the part of 10_state R47 that is about the
state alone. -/
def TableNow (s : State) : Prop :=
  (∀ t, s.table = some t → tableOk s.params t = true) ∧ s.currentFreqIndex < s.params.nFreqStates

/-- Every line RX still has to run meets its condition. -/
def RxLinesOk (s : State) : Prop := ∀ todo, s.rx = .run todo → ∀ l ∈ todo, RxLineOk s l

/-- The invariant is that part and the conditions of the lines SEQ and RX still have to run. -/
theorem tableInv_iff {s : State} :
    TableInv s ↔ TableNow s ∧ (∀ job, s.seq = .run job → SeqLinesOk s job.todo) ∧ RxLinesOk s := by
  simp only [TableInv, TableNow, SeqLinesOk, RxLinesOk, and_assoc]

/-- The invariant of a state in which SEQ has the lines `ls` to run. -/
def LinesInv (s : State) (ls : List SeqLine) : Prop := TableNow s ∧ SeqLinesOk s ls ∧ RxLinesOk s

theorem intscaleLines_free (s : State) (p : Params) (a : Args) : FreeLinesOk s (intscaleLines p a) := by
  unfold intscaleLines; split <;> simp

theorem pllscaleLines_free (s : State) (p : Params) (a : Args) : FreeLinesOk s (pllscaleLines p a) := by
  unfold pllscaleLines; split <;> simp

theorem dptcStartLines_free {s : State} {t : Table} {w : Nat} (ht : s.table = some t) (hw : w < t.wpNum) :
    FreeLinesOk s (dptcStartLines s.params w) := by
  have hv := voltageOps_ok ht hw
  simpa [dptcStartLines, FreeLineOk, OpOk] using hv

/-- The first lines of every command meet their conditions: the checks keep out what does not (43 R190, R196, R197;
45 R263). -/
theorem planOf_ok {s : State} (hs : TableNow s) (i : Instr) (a : Args) : SeqLinesOk s (planOf i s a) := by
  cases i with
  | setTable =>
    simp only [planOf, setTablePlan]
    repeat' split
    · exact FreeLinesOk.seqLinesOk (by simp)
    · exact FreeLinesOk.seqLinesOk (by simp)
    · simp [SeqLinesOk, SeqLineOk]
  | dptcEnable =>
    refine FreeLinesOk.seqLinesOk ?_
    simp only [planOf, dptcEnablePlan]
    split
    · simp
    · split
      · simp
      · rename_i t ht
        split
        · simp
        · exact dptcStartLines_free ht (tableOk_currWp (hs.1 t ht))
  | setFreqIndex =>
    refine FreeLinesOk.seqLinesOk ?_
    simp only [planOf, setFreqIndexPlan]
    split
    · simp
    · split
      · simp
      · rename_i t ht
        have hn := tableOk_dvfsStateNum (hs.1 t ht)
        repeat' split
        all_goals simp
        omega
  | dvfsReqFreq =>
    refine FreeLinesOk.seqLinesOk ?_
    simp only [planOf, reqFreqPlan]
    repeat' split
    · exact intscaleLines_free s s.params a
    · exact pllscaleLines_free s s.params a
    · simp
  | dvfsIntscale => exact FreeLinesOk.seqLinesOk (intscaleLines_free s s.params a)
  | dvfsPllscale => exact FreeLinesOk.seqLinesOk (pllscaleLines_free s s.params a)
  | getTable =>
    refine FreeLinesOk.seqLinesOk ?_
    simp only [planOf, getTablePlan, writeTextLines]
    repeat' split
    all_goals simp [FreeLineOk]
  | _ =>
    -- the plans that name no table, point or index: every branch lists free lines
    refine FreeLinesOk.seqLinesOk ?_
    simp only [planOf, relockPlan, relockLines, dvfsEnablePlan, dvfsDisablePlan, dvfsGetStatePlan, getCpuFreqPlan,
      lpmEnterPlan, dptcDisablePlan, dptcEnableRcPlan, dptcDisableRcPlan, dptcGetStatePlan, dptcSetWpPlan, logReadPlan,
      sysSuspendPlan, sysResumePlan]
    repeat' split
    all_goals simp [FreeLineOk, OpOk]

/-! ### What a step keeps of the table -/

/-- The parameters are as they were, and where a table was installed there is one with as many working points: a
working point of the table stays one. -/
structure SameShape (s s' : State) : Prop where
  params : s'.params = s.params
  points : ∀ t, s.table = some t → ∃ t', s'.table = some t' ∧ t'.wpNum = t.wpNum

theorem SameShape.of_eq {s s' : State} (hp : s'.params = s.params) (ht : s'.table = s.table) : SameShape s s' :=
  ⟨hp, fun t h => ⟨t, ht.trans h, rfl⟩⟩

/-- A line of a shared procedure may change the current point alone. -/
theorem SameShape.of_setWp {s s' : State} {t : Table} {w : Nat} (hp : s'.params = s.params) (hs : s.table = some t)
    (ht : s'.table = some { t with currWp := w }) : SameShape s s' :=
  ⟨hp, fun u hu => ⟨_, ht, by rw [hs] at hu; cases hu; rfl⟩⟩

theorem TableNow.of_eq {s s' : State} (h : TableNow s) (hp : s'.params = s.params) (ht : s'.table = s.table)
    (hf : s'.currentFreqIndex = s.currentFreqIndex) : TableNow s' := by
  unfold TableNow
  rw [hp, ht, hf]
  exact h

theorem TableNow.of_setWp {s s' : State} {t : Table} {w : Nat} (h : TableNow s) (hs : s.table = some t)
    (hw : w < t.wpNum) (hp : s'.params = s.params) (ht : s'.table = some { t with currWp := w })
    (hf : s'.currentFreqIndex = s.currentFreqIndex) : TableNow s' := by
  refine ⟨fun u hu => ?_, by rw [hf, hp]; exact h.2⟩
  rw [ht] at hu
  cases hu
  exact hp ▸ tableOk_setWp (h.1 t hs) hw

theorem opOk_mono {s s' : State} (hs : SameShape s s') {o : Op} (h : OpOk s o) : OpOk s' o := by
  have key : ∀ w, (∃ t, s.table = some t ∧ w < t.wpNum) → ∃ t, s'.table = some t ∧ w < t.wpNum := by
    rintro w ⟨t, ht, hw⟩
    obtain ⟨t', ht', hn⟩ := hs.points t ht
    exact ⟨t', ht', hn ▸ hw⟩
  cases o with
  | setCurrWp w => exact key w h
  | pmicGet ch w => exact key w h
  | pmicSet ch w c => exact key w h
  | thresholds w =>
    cases w with
    | none => trivial
    | some w => exact key w h
  | _ => trivial

theorem rxLineOk_mono {s s' : State} (hs : SameShape s s') {l : RxLine} (h : RxLineOk s l) : RxLineOk s' l := by
  cases l with
  | op o => exact opOk_mono hs h
  | _ => trivial

/-- A line's condition holds in a later state whose table has the same points, and with other lines beside it where
it does not look at them. -/
theorem seqLineOk_mono {s s' : State} (hs : SameShape s s') {ls ls' : List SeqLine} {l : SeqLine}
    (hread : ∀ n, l ≠ .readText n) (hswap : ∀ t, l = .swap t → ∀ m ∈ ls', m ∈ ls) (h : SeqLineOk s ls l) :
    SeqLineOk s' ls' l := by
  cases l with
  | op o => exact opOk_mono hs h
  | stop f => exact h
  | readText n => exact absurd rfl (hread n)
  | swap t =>
    obtain ⟨hok, hall⟩ := h
    exact ⟨hs.params ▸ hok, fun m hm => hall m (hswap t rfl m hm)⟩
  | assign a =>
    cases a with
    | freqIndex n =>
      have hn : n < s.params.nFreqStates := h
      rw [← hs.params] at hn
      exact hn
    | _ => trivial
  | _ => trivial

theorem SeqLinesOk.mono {s s' : State} (hs : SameShape s s') {ls : List SeqLine} (h : SeqLinesOk s ls) :
    SeqLinesOk s' ls := by
  intro l hl
  by_cases hr : ∃ n, l = .readText n
  · obtain ⟨n, rfl⟩ := hr
    exact h _ hl
  · exact seqLineOk_mono hs (fun n hn => hr ⟨n, hn⟩) (fun _ _ _ hm => hm) (h l hl)

/-- The lines after one that is done: those it calls, then the rest. Neither a text read nor a swap stands after
another line that calls lines, because each stands with its own lines only. -/
theorem SeqLinesOk.afterLine {s s' : State} (hs : SameShape s s') {l : SeqLine} {rest more : List SeqLine}
    (hm : FreeLinesOk s' more) (hswap : ∀ t, l ≠ .swap t) (hret : l ≠ .ret 0 0) (h : SeqLinesOk s (l :: rest)) :
    SeqLinesOk s' (more ++ rest) := by
  intro k hk
  obtain hk | hk := List.mem_append.1 hk
  · exact (hm k hk).seqLineOk
  · have hok : SeqLineOk s (l :: rest) k := h k (List.mem_cons_of_mem _ hk)
    refine seqLineOk_mono hs ?_ ?_ hok
    · rintro n rfl
      cases (show l :: rest = [.readText n] from hok)
      cases hk
    · rintro t rfl
      obtain hl | hl := hok.2 l List.mem_cons_self
      · exact absurd hl (hswap t)
      · exact absurd hl hret

theorem OpEffect.seq_eq {s s' : State} {o : Op} {more : List Op} (h : OpEffect s o s' more) : s'.seq = s.seq := by
  cases h <;> simp

theorem OpEffect.rx_eq {s s' : State} {o : Op} {more : List Op} (h : OpEffect s o s' more) : s'.rx = s.rx := by
  cases h <;> simp

/-- The voltage and log lines of `set_wp` (43 R193, R195). -/
theorem wpLines_ok {s : State} {t : Table} {w : Nat} (ht : s.table = some t) (hw : w < t.wpNum) :
    ∀ o ∈ voltageOps s.params w ++ [.logInsert], OpOk s o :=
  List.forall_mem_append.2 ⟨voltageOps_ok ht hw, List.forall_mem_singleton.2 trivial⟩

/-- A line of a shared procedure keeps the table well shaped and its points, and the lines it calls name points of
it (43 R192, R198, R199). -/
theorem OpEffect.keepsTable {s s' : State} {o : Op} {more : List Op} (h : OpEffect s o s' more) (hs : TableNow s)
    (ho : OpOk s o) : TableNow s' ∧ SameShape s s' ∧ ∀ o' ∈ more, OpOk s' o' := by
  cases h with
  | modify => exact ⟨hs.of_eq (by simp) (by simp) (by simp), .of_eq (by simp) (by simp), by simp⟩
  | write => exact ⟨hs.of_eq (by simp) (by simp) (by simp), .of_eq (by simp) (by simp), by simp⟩
  | rcEnable => exact ⟨hs.of_eq (by simp) (by simp) (by simp), .of_eq (by simp) (by simp), by simp⟩
  | @setWpSdma g t ht _ =>
    have hw : clampWp t g < t.wpNum := clampWp_lt (hs.1 t ht) g
    refine ⟨hs.of_eq rfl rfl rfl, .of_eq rfl rfl, List.forall_mem_cons.2 ⟨⟨t, ht, hw⟩, ?_⟩⟩
    exact wpLines_ok (s := { s with prevWp := t.currWp }) ht hw
  | @setWpPlain g t ht _ =>
    have hw : clampWp t g < t.wpNum := clampWp_lt (hs.1 t ht) g
    refine ⟨hs.of_setWp ht hw rfl rfl rfl, .of_setWp rfl ht rfl, List.forall_mem_cons.2 ⟨⟨_, rfl, hw⟩, ?_⟩⟩
    exact wpLines_ok (s := { s with table := some { t with currWp := clampWp t g } }) rfl hw
  | @setCurrWp w t ht =>
    obtain ⟨u, hu, hw⟩ := ho
    rw [ht] at hu
    cases hu
    exact ⟨hs.of_setWp ht hw rfl rfl rfl, .of_setWp rfl ht rfl, by simp⟩
  | thresholds => exact ⟨hs.of_eq rfl rfl rfl, .of_eq rfl rfl, by simp⟩
  | pmicGet => exact ⟨hs, .of_eq rfl rfl, List.forall_mem_singleton.2 ho⟩
  | pmicSet => exact ⟨hs.of_eq rfl rfl rfl, .of_eq rfl rfl, by simp⟩
  | logInsert => exact ⟨hs.of_eq rfl rfl rfl, .of_eq rfl rfl, by simp⟩

theorem rx_idle_of_not_tableBusy {s : State} (h : s.tableBusy = false) : s.rx = .idle := by
  by_contra hr
  simp [State.tableBusy, hr] at h

theorem RxLinesOk.mono {s s' : State} (h : RxLinesOk s) (hs : SameShape s s') (hrx : s'.rx = s.rx) :
    RxLinesOk s' :=
  fun todo ht k hk => rxLineOk_mono hs (h todo (hrx ▸ ht) k hk)

/-- A line of SEQ that is no swap and calls only free lines keeps the invariant if it keeps the table's points. -/
theorem LinesInv.afterLine {s s' : State} {l : SeqLine} {rest more : List SeqLine} (h : LinesInv s (l :: rest))
    (hnow : TableNow s') (hs : SameShape s s') (hrx : s'.rx = s.rx) (hm : FreeLinesOk s' more)
    (hswap : ∀ t, l ≠ .swap t) (hret : l ≠ .ret 0 0) : LinesInv s' (more ++ rest) :=
  ⟨hnow, h.2.1.afterLine hs hm hswap hret, h.2.2.mono hs hrx⟩

/-- A line of SEQ keeps the invariant: either the table keeps its points, or it is swapped while no other line that
names one is left (45 R265, R266). -/
theorem SeqEffect.keepsLinesInv {s s' : State} {a : Args} {l : SeqLine} {rest more : List SeqLine}
    (h : SeqEffect s a l s' more) (hinv : LinesInv s (l :: rest)) : LinesInv s' (more ++ rest) := by
  have ⟨hs, hl, hr⟩ := hinv
  have hok : SeqLineOk s (l :: rest) l := hl l List.mem_cons_self
  cases h with
  | op ho =>
    obtain ⟨hnow, hshape, hmore⟩ := ho.keepsTable hs hok
    exact hinv.afterLine hnow hshape ho.rx_eq (by simpa using hmore) (by simp) (by simp)
  | freqIndex => exact hinv.afterLine ⟨hs.1, hok⟩ (.of_eq rfl rfl) rfl (by simp) (by simp) (by simp)
  | freqIndexOf ht hlt =>
    have hn := tableOk_dvfsStateNum (hs.1 _ ht)
    exact hinv.afterLine ⟨hs.1, hn ▸ hlt⟩ (.of_eq rfl rfl) rfl (by simp) (by simp) (by simp)
  | read => exact hinv.afterLine hs (.of_eq rfl rfl) rfl (contResume_free _ _ _ _ _) (by simp) (by simp)
  | readClock => exact hinv.afterLine hs (.of_eq rfl rfl) rfl (clockResume_free _ _ _ _ _ _) (by simp) (by simp)
  | bracket => exact hinv.afterLine hs (.of_eq rfl rfl) rfl (lpmLines_free _ _ _) (by simp) (by simp)
  | readText =>
    cases (show _ :: rest = [_] from hok)
    rw [List.append_nil]
    exact ⟨hs, parsedLines_ok _ _ _, hr⟩
  | @swap t hb =>
    refine ⟨⟨fun u hu => ?_, hs.2⟩, fun k hk => ?_, fun todo ht => ?_⟩
    · cases hu; exact hok.1
    · obtain rfl | rfl := hok.2 k (List.mem_cons_of_mem _ hk)
      · exact ⟨hok.1, fun m hm => hok.2 m (List.mem_cons_of_mem _ hm)⟩
      · trivial
    · exact nomatch (rx_idle_of_not_tableBusy hb).symm.trans ht
  | _ => exact hinv.afterLine hs (.of_eq rfl rfl) rfl (by simp) (by simp) (by simp)

/-- The lines SEQ runs next meet their conditions, at the start of a command and later. -/
theorem linesOf_ok {s : State} {job : Job} (hs : TableNow s) (hj : SeqLinesOk s job.todo) (i : Instr) :
    SeqLinesOk s (linesOf i s job) := by
  unfold linesOf
  split
  · exact planOf_ok hs i job.args
  · exact hj

/-! ### The steps -/

/-- A step that moves neither SEQ nor RX keeps the invariant if it keeps the table's shape and points. -/
theorem tableInv_of_still {s t : State} (h : TableInv s) (hnow : TableNow t) (hshape : SameShape s t)
    (hseq : t.seq = s.seq) (hrx : t.rx = s.rx) : TableInv t := by
  obtain ⟨-, hj, hr⟩ := tableInv_iff.1 h
  exact tableInv_iff.2 ⟨hnow, fun job ht => (hj job (hseq ▸ ht)).mono hshape, hr.mono hshape hrx⟩

/-- A step that touches neither the table nor the index keeps the invariant if the lines SEQ and RX have then are as
before or meet their conditions. -/
theorem tableInv_of_lines {s t : State} (h : TableInv s) (hp : t.params = s.params) (ht : t.table = s.table)
    (hf : t.currentFreqIndex = s.currentFreqIndex)
    (hseq : t.seq = s.seq ∨ ∀ job, t.seq = .run job → SeqLinesOk s job.todo)
    (hrx : t.rx = s.rx ∨ ∀ todo, t.rx = .run todo → ∀ k ∈ todo, RxLineOk s k) : TableInv t := by
  obtain ⟨hnow, hj, hr⟩ := tableInv_iff.1 h
  have hshape : SameShape s t := .of_eq hp ht
  refine tableInv_iff.2 ⟨hnow.of_eq hp ht hf, fun job hrun => ?_, fun todo hrun k hk => ?_⟩
  · exact (hseq.elim (fun e => hj job (e ▸ hrun)) (fun e => e job hrun)).mono hshape
  · exact rxLineOk_mono hshape (hrx.elim (fun e => hr todo (e ▸ hrun) k hk) (fun e => e todo hrun k hk))

theorem tableInv_reset {p : Params} (h : 1 ≤ p.nFreqStates) (e : Env) : TableInv (State.resetIn p e) :=
  ⟨fun _ => tableReset_tableOk, h, fun _ hj => (nomatch hj), fun _ hr => (nomatch hr)⟩

theorem reactionLines_ok (s : State) (p : Params) (cause : BitVec 2) :
    ∀ k ∈ reactionLines p cause, RxLineOk s k := by
  unfold reactionLines
  repeat' split
  all_goals simp [RxLineOk, OpOk]

theorem rearmLines_ok (s : State) (b : Bool) : ∀ k ∈ rearmLines b, RxLineOk s k := by
  cases b <;> simp [rearmLines, RxLineOk, OpOk]

/-- A line of RX keeps the invariant. -/
theorem RxEffect.keepsTableInv {s s' : State} {l : RxLine} {rest more : List RxLine} (h : RxEffect s l s' more)
    (hs : TableInv s) (hrx : s.rx = .run (l :: rest)) : TableInv { s' with rx := .run (more ++ rest) } := by
  obtain ⟨hnow, hj, hr⟩ := tableInv_iff.1 hs
  have hl : ∀ k ∈ l :: rest, RxLineOk s k := hr _ hrx
  have hrest : ∀ k ∈ rest, RxLineOk s k := fun k hk => hl k (List.mem_cons_of_mem _ hk)
  cases h with
  | rearm =>
    refine tableInv_of_lines hs rfl rfl rfl (.inl rfl) (.inr fun todo ht => ?_)
    cases ht
    exact List.forall_mem_append.2 ⟨rearmLines_ok _ _, hrest⟩
  | op ho =>
    obtain ⟨hnow', hshape, hmore⟩ := ho.keepsTable hnow (hl _ List.mem_cons_self)
    refine tableInv_iff.2 ⟨hnow', fun job hrun => (hj job (ho.seq_eq ▸ hrun)).mono hshape, fun todo ht => ?_⟩
    cases ht
    refine List.forall_mem_append.2 ⟨?_, fun k hk => rxLineOk_mono hshape (hrest k hk)⟩
    exact List.forall_mem_map.2 hmore

theorem envSdma_keepsTableInv {s : State} (h : TableInv s) (w : Nat) (c : Cause) : TableInv (envSdma w c s) := by
  obtain he | ⟨t, q, ht, hq, -, -, -, -, he⟩ := envSdma_cases w c s
  · rwa [he]
  · rw [he]
    exact tableInv_of_still h ((tableInv_iff.1 h).1.of_setWp ht (tableCell_lt hq) rfl rfl rfl)
      (.of_setWp rfl ht rfl) rfl rfl

theorem envWake_keepsTableInv {s : State} (h : TableInv s) : TableInv (envWake s) := by
  obtain he | ⟨job, rest, hj, htodo, he⟩ := envWake_cases s
  · rwa [he]
  · have hlines : SeqLinesOk s (.wfi :: rest) := htodo ▸ (tableInv_iff.1 h).2.1 job hj
    rw [he]
    refine tableInv_of_lines h rfl rfl rfl (.inr fun job' ht => ?_) (.inl rfl)
    cases ht
    exact hlines.afterLine (more := []) (.of_eq rfl rfl) (by simp) (by simp) (by simp)

theorem writePort_keepsTableInv {s : State} (h : TableInv s) (r : PortReg) (v : Word) :
    TableInv (s.writePort r v) := by
  cases r with
  | cmd =>
    simp only [State.writePort, State.writeCmd]
    split
    · exact tableInv_of_lines h rfl rfl rfl (.inl rfl) (.inl rfl)
    · refine tableInv_of_lines h rfl rfl rfl (.inr fun job ht => ?_) (.inl rfl)
      cases ht
      simp [SeqLinesOk, SeqLineOk]
  | _ => exact tableInv_of_lines h rfl rfl rfl (.inl rfl) (.inl rfl)

/-- Settles O56: by what one step can do (`step_move`), each case keeping the table's shape and the conditions of the
lines that are left. -/
theorem everyStepKeepsTheTableInvariants : Obligations.EveryStepKeepsTheTableInvariants := by
  intro s t hn h hstep
  obtain ⟨hnow, hj, hr⟩ := tableInv_iff.1 h
  have hin (ins : List Input) : TableInv (withInputs s ins) := h
  cases step_move hstep with
  | onlyCsr hc => exact tableInv_of_lines h hc.params hc.table hc.currentFreqIndex (.inl hc.seq) (.inl hc.rx)
  | @seqLine ins job i l rest s' more hrun hl he =>
    have hlines := linesOf_ok (s := withInputs s ins) hnow (hj job hrun) i
    rw [hl] at hlines
    have hinv : LinesInv (withInputs s ins) (l :: rest) := ⟨hnow, hlines, hr⟩
    obtain ⟨hnow', hlines', hr'⟩ := he.keepsLinesInv hinv
    refine tableInv_iff.2 ⟨hnow', fun job' ht => ?_, hr'⟩
    cases ht
    exact hlines'
  | commandOver _ ho =>
    exact tableInv_of_lines h ho.params ho.table ho.currentFreqIndex
      (.inr fun job ht => nomatch ho.seq.symm.trans ht) (.inl ho.rx)
  | rxTake =>
    refine tableInv_of_lines h rfl rfl rfl (.inl rfl) (.inr fun todo ht => ?_)
    cases ht
    exact reactionLines_ok _ _ _
  | rxLine hrx he => exact he.keepsTableInv (hin _) hrx
  | rxEnd => exact tableInv_of_lines h rfl rfl rfl (.inl rfl) (.inr fun _ ht => (nomatch ht))
  | hostPort => exact writePort_keepsTableInv (hin _) ..
  | hostData => exact tableInv_of_lines h rfl rfl rfl (.inl rfl) (.inl rfl)
  | sdma => exact envSdma_keepsTableInv (hin _) ..
  | wake => exact envWake_keepsTableInv (hin _)
  | reset => exact tableInv_reset hn _

end Sys2Proof.Machine
end

section
/-! SUPPORT. The registers (10_state R23 to R43): reserved bits, SW_DONE and CAUSE, and what one step does to them. -/

namespace Sys2Proof.Machine

/-! ### Reserved bits of a word -/

theorem and_and_not_self (v m : Word) : v &&& m &&& ~~~m = 0 := by
  simp [BitVec.and_assoc]

theorem and_reserved {w m : Word} (h : w &&& m = 0) (v : Word) : w &&& v &&& m = 0 := by
  rw [BitVec.and_assoc, BitVec.and_comm v, ← BitVec.and_assoc, h]
  simp

theorem or_reserved {v w m : Word} (hv : v &&& m = 0) (hw : w &&& m = 0) : (v ||| w) &&& m = 0 := by
  rw [BitVec.and_or_distrib_right, hv, hw]
  rfl

/-! ### Writes of PLLSR, PSR and DPTCCR -/

theorem pllsrWrite_reserved {w m : Word} (h : w &&& m = 0) (v : Word) : pllsrWrite w v &&& m = 0 := by
  unfold pllsrWrite
  split
  · exact and_reserved h _
  · exact h

theorem psrWrite_reserved {w m : Word} (h : w &&& m = 0) (v : Word) : psrWrite w v &&& m = 0 := by
  unfold psrWrite
  split
  · exact and_reserved h _
  · exact h

/-- A write of PLLSR sets no SW_DONE (10_state R26). -/
theorem pllsrSwDone_pllsrWrite {w v : Word} (h : pllsrSwDone w = false) : pllsrSwDone (pllsrWrite w v) = false := by
  unfold pllsrWrite
  split
  · simp only [pllsrSwDone, bit, BitVec.getLsbD_and] at h ⊢
    rw [h, Bool.false_and]
  · exact h

/-- CAUSE after a write of DPTCCR: kept where DPTC_EN is written 1, else 0 (10_state R33). -/
theorem dptcCause_dptccrWrite (p : Params) (old v : Word) :
    dptcCause (dptccrWrite p old v) = if v.getLsbD 0 then dptcCause old else 0 := by
  by_cases hv : v.getLsbD 0 = true
  · have hb : bit v 0 = true := hv
    rw [if_pos hv]
    simp only [dptcCause, dptccrWrite, hb]
    cases p.hasSdma <;> ext i hi <;> interval_cases i <;> simp
  · rw [if_neg hv]
    exact (dptccrWrite_disable (by simpa using hv)).1

/-- DPTC_EN after a write of DPTCCR is the bit written (10_state R32). -/
theorem dptcEn_dptccrWrite (p : Params) (old v : Word) : dptcEn (dptccrWrite p old v) = v.getLsbD 0 := by
  cases hv : v.getLsbD 0
  · exact (dptccrWrite_disable hv).2
  · have h0 : v[0] = true := by simpa using hv
    cases hS : p.hasSdma <;> simp [dptccrWrite, dptcEn, bit, h0, hS]

/-- CAUSE stays 0 while the block is disabled, whatever is written (10_state R33). -/
theorem dptccrWrite_causeOk (p : Params) (old v : Word) :
    dptcEn (dptccrWrite p old v) = false → dptcCause (dptccrWrite p old v) = 0 := by
  rw [dptcEn_dptccrWrite, dptcCause_dptccrWrite]
  intro h
  rw [if_neg (by rw [h]; decide)]

/-! ### A cause the hardware raises -/

/-- The bits of DPTCCR that CAUSE shows a cause in (10_state R32). -/
def Cause.mask : Cause → Word
  | .decrease => 0x4
  | .increase => 0x8
  | .emergency => 0xC

/-- Raising a cause where none is shown sets its two bits. -/
theorem withCause_of_none {w : Word} (h : dptcCause w = 0) (c : Cause) : withCause w c = w ||| c.mask := by
  have h2 : w[2] = false := by simpa [dptcCause] using congrArg (·.getLsbD 0) h
  have h3 : w[3] = false := by simpa [dptcCause] using congrArg (·.getLsbD 1) h
  cases c <;> simp only [withCause, merge, Cause.bits, Cause.mask] <;> ext i hi <;> interval_cases i <;> simp [h2, h3]

@[simp] theorem dptcEn_withCause (w : Word) (c : Cause) : dptcEn (withCause w c) = dptcEn w := by
  simp [dptcEn, bit, withCause, merge]

@[simp] theorem dptcEn_and_not_voltValid (w : Word) : dptcEn (w &&& ~~~0x100) = dptcEn w := by
  simp [dptcEn, bit]

@[simp] theorem dptcCause_and_not_voltValid (w : Word) : dptcCause (w &&& ~~~0x100) = dptcCause w := by
  simp only [dptcCause]
  ext i hi
  interval_cases i <;> simp

theorem withCause_reserved {w m : Word} (h : w &&& m = 0) (hm : (0xC : Word) &&& m = 0) (c : Cause) :
    withCause w c &&& m = 0 := by
  unfold withCause merge
  refine or_reserved (and_reserved h _) ?_
  rw [BitVec.and_assoc, hm]
  simp

/-! ### The registers of a state -/

/-- Reserved bits of the CSR registers read 0, and CAUSE is 0 while the block is disabled (10_state R23 to R38). -/
structure CsrFile.Ok (f : CsrFile) : Prop where
  div : f.div &&& ~~~(divMask f.params) = 0
  mpll : f.mpll &&& ~~~pllMask = 0
  tpll : f.tpll &&& ~~~(tpllMask f.params) = 0
  pllsr : f.pllsr &&& ~~~pllsrMask = 0
  lpmcr : f.lpmcr &&& ~~~lpmcrMask = 0
  inten : f.inten &&& ~~~intenMask = 0
  dptccr : f.dptccr &&& ~~~(dptccrMask f.params) = 0
  dvfscr : f.dvfscr &&& ~~~(dvfscrMask f.params) = 0
  cause : dptcEn f.dptccr = false → dptcCause f.dptccr = 0

/-- The invariant is that of the CSR with the two registers of the command port that have reserved bits. -/
theorem regsOk_iff {s : State} :
    RegsOk s ↔ s.csrFile.Ok ∧ s.psr &&& ~~~0x3 = 0 ∧ s.result &&& ~~~0xFFFF = 0 := by
  constructor
  · rintro ⟨hdiv, hmpll, htpll, hpllsr, hlpmcr, hinten, hdptccr, hdvfscr, hpsr, hresult, hcause⟩
    exact ⟨⟨hdiv, hmpll, htpll, hpllsr, hlpmcr, hinten, hdptccr, hdvfscr, hcause⟩, hpsr, hresult⟩
  · rintro ⟨h, hpsr, hresult⟩
    exact ⟨h.div, h.mpll, h.tpll, h.pllsr, h.lpmcr, h.inten, h.dptccr, h.dvfscr, hpsr, hresult, h.cause⟩

/-- A register write stores only bits that exist (10_state R23 to R38). -/
theorem writeCsr_ok {s : State} (h : s.csrFile.Ok) (r : Csr) (v : Word) : (s.writeCsr r v).csrFile.Ok := by
  cases r with
  | div =>
    simp only [State.writeCsr, State.writeDiv]
    split
    · exact { h with div := and_and_not_self .., pllsr := or_reserved h.pllsr (by decide) }
    · exact { h with div := and_and_not_self .. }
  | mpll => exact { h with mpll := and_and_not_self .. }
  | tpll => exact { h with tpll := and_and_not_self .. }
  | pllsr => exact { h with pllsr := pllsrWrite_reserved h.pllsr v }
  | lpmcr => exact { h with lpmcr := and_and_not_self .. }
  | inten => exact { h with inten := and_and_not_self .. }
  | dptccr => exact { h with dptccr := dptccrWrite_mask .., cause := dptccrWrite_causeOk _ _ _ }
  | dvfscr => exact { h with dvfscr := and_and_not_self .. }
  | _ => exact { h with }

theorem CsrWritten.ok {s t : State} (h : CsrWritten s t) (hs : s.csrFile.Ok) : t.csrFile.Ok := by
  obtain h | ⟨r, v, h⟩ := h
  · exact h ▸ hs
  · exact h ▸ writeCsr_ok hs r v

theorem resetIn_ok (p : Params) (e : Env) : (State.resetIn p e).csrFile.Ok where
  div := and_and_not_self ..
  mpll := and_and_not_self ..
  tpll := and_and_not_self ..
  pllsr := by
    change pllsrReset p &&& ~~~pllsrMask = 0
    unfold pllsrReset
    refine or_reserved (or_reserved (by decide) ?_) ?_ <;> split <;> decide
  lpmcr := BitVec.zero_and
  inten := (by decide : intenReset &&& ~~~intenMask = 0)
  dptccr := by
    change dptccrReset p &&& ~~~(dptccrMask p) = 0
    unfold dptccrReset dptccrMask
    split <;> decide
  dvfscr := BitVec.zero_and
  cause _ := by
    change dptcCause (dptccrReset p) = 0
    unfold dptccrReset
    split <;> decide

theorem withCause_ok {p : Params} {w : Word} (hw : w &&& ~~~(dptccrMask p) = 0) (c : Cause) :
    withCause w c &&& ~~~(dptccrMask p) = 0 :=
  withCause_reserved hw (by unfold dptccrMask; split <;> decide) c

theorem envPllLock_ok {s : State} (h : s.csrFile.Ok) : (envPllLock s).csrFile.Ok := by
  unfold envPllLock
  split
  · exact { h with pllsr := or_reserved h.pllsr (by split <;> decide) }
  · exact h

theorem envPllDone_ok {s : State} (h : s.csrFile.Ok) : (envPllDone s).csrFile.Ok := by
  unfold envPllDone
  split
  · exact { h with pllsr := or_reserved (and_reserved h.pllsr _) (by split <;> decide) }
  · exact h

theorem envDptc_ok {s : State} (h : s.csrFile.Ok) (c : Cause) : (envDptc c s).csrFile.Ok := by
  obtain he | ⟨hen, -, -, he⟩ := envDptc_cases c s
  · rwa [he]
  · rw [he]
    exact { h with dptccr := withCause_ok h.dptccr c,
                   cause := fun hd => by
                     have hoff : dptcEn (withCause s.dptccr c) = false := hd
                     rw [dptcEn_withCause, hen] at hoff
                     cases hoff }

theorem envSdma_ok {s : State} (h : s.csrFile.Ok) (w : Nat) (c : Cause) : (envSdma w c s).csrFile.Ok := by
  obtain he | ⟨t, q, -, -, -, hen, -, -, he⟩ := envSdma_cases w c s
  · rwa [he]
  · rw [he]
    exact { h with dptccr := withCause_ok (and_reserved h.dptccr _) c,
                   cause := fun hd => by
                     have hoff : dptcEn (withCause (s.dptccr &&& ~~~0x100) c) = false := hd
                     rw [dptcEn_withCause, dptcEn_and_not_voltValid, hen] at hoff
                     cases hoff }

/-- Every step keeps the reserved bits of the CSR 0, and CAUSE 0 while the block is disabled. -/
theorem CsrMove.ok {s t : State} (h : CsrMove s t) (hs : s.csrFile.Ok) : t.csrFile.Ok := by
  have hin (ins : List Input) : (withInputs s ins).csrFile.Ok := hs
  cases h with
  | written hw => exact hw.ok hs
  | pllLock => exact envPllLock_ok (hin _)
  | pllDone => exact envPllDone_ok (hin _)
  | cause => exact envDptc_ok (hin _) _
  | sdma => exact envSdma_ok (hin _) _ _
  | reset => exact resetIn_ok ..

/-! ### BUSY, OVR and RESULT -/

/-- RESULT of a raise has a kind and a detail, and nothing above them (30_encoding R95, R96). -/
theorem errResult_reserved (e : Err) : e.result &&& ~~~0xFFFF = 0 := by
  cases e <;> decide

/-- Reserved bits of PSR and RESULT read 0 (10_state R41, R43). -/
def PortOk (s : State) : Prop := s.psr &&& ~~~0x3 = 0 ∧ s.result &&& ~~~0xFFFF = 0

theorem PortOk.of_eq {s t : State} (h : PortOk s) (hp : t.psr = s.psr) (hr : t.result = s.result) : PortOk t :=
  ⟨hp ▸ h.1, hr ▸ h.2⟩

theorem writePort_portOk {s : State} (h : PortOk s) (r : PortReg) (v : Word) : PortOk (s.writePort r v) := by
  obtain ⟨hp, hr⟩ := h
  cases r with
  | cmd =>
    simp only [State.writePort, State.writeCmd]
    split
    · exact ⟨or_reserved hp (by decide), hr⟩
    · exact ⟨or_reserved hp (by decide), BitVec.zero_and⟩
  | psr => exact ⟨psrWrite_reserved hp v, hr⟩
  | _ => exact ⟨hp, hr⟩

theorem OpEffect.port_eq {s s' : State} {o : Op} {more : List Op} (h : OpEffect s o s' more) :
    s'.psr = s.psr ∧ s'.result = s.result := by
  cases h <;> simp

theorem SeqEffect.port_eq {s s' : State} {a : Args} {l : SeqLine} {more : List SeqLine}
    (h : SeqEffect s a l s' more) : s'.psr = s.psr ∧ s'.result = s.result := by
  cases h with
  | op ho => exact ho.port_eq
  | _ => exact ⟨rfl, rfl⟩

theorem RxEffect.port_eq {s s' : State} {l : RxLine} {more : List RxLine} (h : RxEffect s l s' more) :
    s'.psr = s.psr ∧ s'.result = s.result := by
  cases h with
  | op ho => exact ho.port_eq
  | rearm => exact ⟨rfl, rfl⟩

theorem Move.portOk {s t : State} (h : Move s t) (hs : PortOk s) : PortOk t := by
  have hin (ins : List Input) : PortOk (withInputs s ins) := hs
  cases h with
  | onlyCsr hc => exact hs.of_eq hc.psr hc.result
  | seqLine _ _ he => exact hs.of_eq he.port_eq.1 he.port_eq.2
  | commandOver _ ho =>
    refine ⟨ho.psr ▸ and_reserved hs.1 _, ?_⟩
    obtain hr | ⟨e, hr⟩ := ho.result
    · rw [hr]; decide
    · exact hr ▸ errResult_reserved e
  | rxLine _ he => exact hs.of_eq he.port_eq.1 he.port_eq.2
  | hostPort => exact writePort_portOk (hin _) _ _
  | @sdma w c rest =>
    obtain he | ⟨t, q, -, -, -, -, -, -, he⟩ := envSdma_cases w c (withInputs s rest) <;> rw [he] <;> exact hs
  | @wake rest =>
    obtain he | ⟨job, todo, -, -, he⟩ := envWake_cases (withInputs s rest) <;> rw [he] <;> exact hs
  | reset => exact ⟨BitVec.zero_and, BitVec.zero_and⟩
  | _ => exact hs.of_eq rfl rfl

/-- Settles O54: the registers of the CSR by `step_csrMove`, PSR and RESULT by `step_move`. -/
theorem everyStepKeepsReservedBitsZero : Obligations.EveryStepKeepsReservedBitsZero := by
  intro s t h hstep
  obtain ⟨hc, hp⟩ := regsOk_iff.1 h
  exact regsOk_iff.2 ⟨(step_csrMove hstep).ok hc, (step_move hstep).portOk hp⟩

end Sys2Proof.Machine
end

section
/-! SUPPORT. BUSY and the locks (10_state R43, R51), and the log, the DATA window and the parameters (10_state R44, R48,
R53), which every step keeps. -/

namespace Sys2Proof.Machine

/-! ### BUSY and the locks -/

theorem OpEffect.locks_eq {s s' : State} {o : Op} {more : List Op} (h : OpEffect s o s' more) :
    s'.regLock = s.regLock ∧ s'.logMutex = s.logMutex ∧ s'.dvfsLock = s.dvfsLock := by
  cases h <;> simp

/-- A line of SEQ leaves the short locks and takes dvfs_lock at most for SEQ (41 R120). -/
theorem SeqEffect.locks {s s' : State} {a : Args} {l : SeqLine} {more : List SeqLine} (h : SeqEffect s a l s' more) :
    s'.regLock = s.regLock ∧ s'.logMutex = s.logMutex ∧
      (s'.dvfsLock = s.dvfsLock ∨ s'.dvfsLock = .held .seq) := by
  cases h with
  | op ho =>
    obtain ⟨hr, hm, hd⟩ := ho.locks_eq
    exact ⟨hr, hm, .inl hd⟩
  | acquire => exact ⟨rfl, rfl, .inr rfl⟩
  | _ => exact ⟨rfl, rfl, .inl rfl⟩

theorem RxEffect.frame {s s' : State} {l : RxLine} {more : List RxLine} (h : RxEffect s l s' more) :
    s'.seq = s.seq ∧ s'.regLock = s.regLock ∧ s'.logMutex = s.logMutex ∧ s'.dvfsLock = s.dvfsLock := by
  cases h with
  | op ho => exact ⟨ho.seq_eq, ho.locks_eq⟩
  | rearm => exact ⟨rfl, rfl, rfl, rfl⟩

theorem psrBusy_or_busy (w : Word) : psrBusy (w ||| 0x1) = true := by simp [psrBusy, bit]
theorem psrBusy_and_not_busy (w : Word) : psrBusy (w &&& ~~~0x1) = false := by simp [psrBusy, bit]
theorem psrBusy_or_ovr (w : Word) : psrBusy (w ||| 0x2) = psrBusy w := by simp [psrBusy, bit]

/-- A write of PSR leaves BUSY (10_state R43). -/
@[simp] theorem psrBusy_psrWrite (w v : Word) : psrBusy (psrWrite w v) = psrBusy w := by
  unfold psrWrite
  split <;> simp [psrBusy, bit]

/-- BUSY says whether SEQ runs a command, and only a running SEQ holds a lock (10_state R43, R51). -/
def CommandOk (s : State) : Prop := BusyOk s ∧ LocksOk s

/-- The invariant looks at BUSY, the locks and whether SEQ is idle. -/
theorem CommandOk.of_eq {s t : State} (h : CommandOk s) (hb : psrBusy t.psr = psrBusy s.psr)
    (hq : t.seq = .idle ↔ s.seq = .idle) (hr : t.regLock = s.regLock) (hm : t.logMutex = s.logMutex)
    (hd : t.dvfsLock = s.dvfsLock) : CommandOk t := by
  unfold CommandOk BusyOk LocksOk
  rw [hb, hr, hm, hd, Ne, hq]
  exact h

/-- A running SEQ keeps the invariant while it runs, with BUSY as it was. -/
theorem CommandOk.of_run {s t : State} (h : CommandOk s) (hs : s.seq ≠ .idle) (ht : t.seq ≠ .idle)
    (hb : t.psr = s.psr) (hr : t.regLock = s.regLock) (hm : t.logMutex = s.logMutex)
    (hd : t.dvfsLock = s.dvfsLock ∨ t.dvfsLock = .held .seq) : CommandOk t := by
  obtain ⟨hbusy, hreg, hlog, hdvfs⟩ := h
  refine ⟨?_, hr.trans hreg, hm.trans hlog, ?_⟩
  · simpa [BusyOk, hb, ht, hs] using hbusy
  · obtain hd | hd := hd
    · rw [hd]; exact hdvfs.imp_right (fun e => ⟨e.1, ht⟩)
    · exact .inr ⟨hd, ht⟩

/-- The end of a command leaves every lock free and BUSY clear (60 R320). -/
theorem CommandOk.of_commandOver {s t : State} (h : CommandOk s) (ho : CommandOver s t) : CommandOk t := by
  obtain ⟨-, hreg, hlog, hdvfs⟩ := h
  refine ⟨iff_of_false ?_ (absurd ho.seq), ho.regLock.trans hreg, ho.logMutex.trans hlog, .inl ?_⟩
  · rw [ho.psr, psrBusy_and_not_busy]
    exact Bool.false_ne_true
  · rw [ho.dvfsLock]
    obtain hd | ⟨hd, -⟩ := hdvfs <;> simp [hd]

theorem writePort_commandOk {s : State} (h : CommandOk s) (r : PortReg) (v : Word) : CommandOk (s.writePort r v) := by
  cases r with
  | cmd =>
    simp only [State.writePort, State.writeCmd]
    split
    · exact h.of_eq (psrBusy_or_ovr s.psr) Iff.rfl rfl rfl rfl
    · rename_i hb
      obtain ⟨hbusy, hreg, hlog, hdvfs⟩ := h
      have hidle : s.seq = .idle := by simpa [BusyOk, hb] using hbusy
      exact ⟨iff_of_true (psrBusy_or_busy s.psr) nofun, hreg, hlog, .inl (hdvfs.resolve_right fun e => e.2 hidle)⟩
  | psr => exact h.of_eq (by simp [State.writePort]) Iff.rfl rfl rfl rfl
  | _ => exact h.of_eq rfl Iff.rfl rfl rfl rfl

/-- Settles O55: by what one step can do (`step_move`); only a CMD write, a line of SEQ and the end of a command touch
BUSY, a lock or whether SEQ runs. -/
theorem everyStepKeepsBusyAndTheLocks : Obligations.EveryStepKeepsBusyAndTheLocks := by
  intro s t hb hl hstep
  change CommandOk t
  have h : CommandOk s := ⟨hb, hl⟩
  have hin (ins : List Input) : CommandOk (withInputs s ins) := h
  cases step_move hstep with
  | onlyCsr hc => exact h.of_eq (by rw [hc.psr]) (by rw [hc.seq]) hc.regLock hc.logMutex hc.dvfsLock
  | seqLine hj _ he =>
    obtain ⟨hr, hm, hd⟩ := he.locks
    exact h.of_run (by simp [hj]) (by simp) he.port_eq.1 hr hm hd
  | commandOver _ ho => exact h.of_commandOver ho
  | rxLine _ he =>
    obtain ⟨hq, hr, hm, hd⟩ := he.frame
    exact h.of_eq (congrArg psrBusy he.port_eq.1) (Eq.congr_left hq) hr hm hd
  | hostPort => exact writePort_commandOk (hin _) _ _
  | @sdma w c rest =>
    obtain he | ⟨t, q, -, -, -, -, -, -, he⟩ := envSdma_cases w c (withInputs s rest) <;> rw [he] <;> exact h
  | @wake rest =>
    obtain he | ⟨job, todo, hj, -, he⟩ := envWake_cases (withInputs s rest)
    · rw [he]; exact h
    · have hrun : s.seq = .run job := hj
      rw [he]
      exact h.of_run (by simp [hrun]) (by simp) rfl rfl rfl (.inl rfl)
  | reset => exact ⟨by simp [BusyOk, State.reboot, State.resetIn, psrBusy, bit], rfl, rfl, .inl rfl⟩
  | _ => exact h.of_eq rfl Iff.rfl rfl rfl rfl

/-! ### The log, the DATA window and the parameters -/

/-- The log ring is well shaped for the parameters of the state (10_state R48). -/
theorem logOk_iff {s : State} : LogOk s ↔ ringOk s.params.logCapacity s.log := Iff.rfl

/-- What a step keeps of the stores: the ring's shape, the window's form and the parameters (10_state R44, R48,
R53). -/
structure KeepsStores (s t : State) : Prop where
  log : LogOk s → LogOk t
  data : s.data.wf = true → t.data.wf = true
  params : t.params = s.params

theorem KeepsStores.of_eq {s t : State} (hp : t.params = s.params) (hl : t.log = s.log) (hd : t.data = s.data) :
    KeepsStores s t :=
  ⟨fun h => by rw [logOk_iff, hp, hl]; exact h, fun h => hd ▸ h, hp⟩

theorem OpEffect.keepsStores {s s' : State} {o : Op} {more : List Op} (h : OpEffect s o s' more) :
    KeepsStores s s' := by
  cases h with
  | logInsert => exact ⟨fun hl => ringOk_push hl _, id, rfl⟩
  | _ => exact .of_eq (by simp) (by simp) (by simp)

theorem SeqEffect.keepsStores {s s' : State} {a : Args} {l : SeqLine} {more : List SeqLine}
    (h : SeqEffect s a l s' more) : KeepsStores s s' := by
  cases h with
  | op ho => exact ho.keepsStores
  | memWrite => exact ⟨id, fun hd => Memory.wf_writeBytes hd _ _, rfl⟩
  | drain => exact ⟨fun hl => ringOk_drop hl _, fun hd => Memory.wf_writeBytes hd _ _, rfl⟩
  | _ => exact .of_eq rfl rfl rfl

theorem RxEffect.keepsStores {s s' : State} {l : RxLine} {more : List RxLine} (h : RxEffect s l s' more) :
    KeepsStores s s' := by
  cases h with
  | op ho => exact ho.keepsStores
  | rearm => exact .of_eq rfl rfl rfl

theorem writePort_keepsStores (s : State) (r : PortReg) (v : Word) : KeepsStores s (s.writePort r v) := by
  cases r with
  | cmd => exact .of_eq (by simp [State.writePort]) (by simp [State.writePort]) (by simp [State.writePort])
  | _ => exact .of_eq rfl rfl rfl

/-- Settles O58: by what one step can do (`step_move`); only an insert, a drain and reset move the ring, and only a
MemWrite, a HOST store and reset the window. -/
theorem everyStepKeepsTheLogTheWindowAndTheParameters :
    Obligations.EveryStepKeepsTheLogTheWindowAndTheParameters := by
  intro s t hstep
  suffices h : KeepsStores s t from ⟨h.log, h.data, h.params⟩
  cases step_move hstep with
  | onlyCsr hc => exact .of_eq hc.params hc.log hc.data
  | seqLine _ _ he => exact ⟨he.keepsStores.log, he.keepsStores.data, he.keepsStores.params⟩
  | commandOver _ ho => exact .of_eq ho.params ho.log ho.data
  | rxLine _ he => exact ⟨he.keepsStores.log, he.keepsStores.data, he.keepsStores.params⟩
  | @hostPort ins r v =>
    have h := writePort_keepsStores (withInputs s ins) r v
    exact ⟨h.log, h.data, h.params⟩
  | hostData => exact ⟨id, fun hd => Memory.wf_writeBytes hd _ _, rfl⟩
  | @sdma w c rest =>
    obtain he | ⟨t, q, -, -, -, -, -, -, he⟩ := envSdma_cases w c (withInputs s rest) <;> rw [he] <;>
      exact .of_eq rfl rfl rfl
  | @wake rest =>
    obtain he | ⟨job, todo, -, -, he⟩ := envWake_cases (withInputs s rest) <;> rw [he] <;> exact .of_eq rfl rfl rfl
  | reset => exact ⟨fun hl => ringOk_reset hl.1 _ _, fun _ => rfl, rfl⟩
  | _ => exact .of_eq rfl rfl rfl

end Sys2Proof.Machine
end

section
/-! SUPPORT. Accesses of the HOST to one register (20_memory R71, R78), and the statements about the bits that a write,
the PLL switch and the DPTC hardware move (10_state R26, R27, R32, R33, R35, R39, R43). -/

namespace Sys2Proof.Machine

/-! ### The bus -/

/-- An offset of the CSR map is an aligned word of the bus (10_state R22, 20_memory R71). -/
theorem csrAt_isRegister {off : Nat} {r : Csr} (h : csrAt off = some r) :
    accessAdmitted off 4 = true ∧ isRegisterOffset off = true := by
  unfold csrAt at h
  split at h
  case h_14 => cases h
  all_goals exact ⟨rfl, rfl⟩

/-- An offset of the command port is an aligned word of the bus, and none of the CSR (10_state R39 to R43). -/
theorem portAt_isRegister {off : Nat} {r : PortReg} (h : portAt off = some r) :
    accessAdmitted off 4 = true ∧ isRegisterOffset off = true ∧ csrAt off = none := by
  unfold portAt at h
  split at h
  case h_10 => cases h
  all_goals exact ⟨rfl, rfl, rfl⟩

section Bus
variable {s : State} {rest : List Input} {off : Nat} {v : Word}

/-- A HOST write of a CSR register is that register's write. -/
theorem step_hostWrite_csr {r : Csr} (hr : csrAt off = some r) (hk : s.env.hostStuck = false)
    (h : s.env.inputs = .host (.write (s.params.pcsBase + off) 4 v) :: rest) :
    step s = .next ((withInputs s rest).writeCsr r v) := by
  obtain ⟨ha, ho⟩ := csrAt_isRegister hr
  simp [step_hostWrite hk h, hostWrite, ha, ho, State.writeRegister, hr]

/-- A HOST write of a command-port register is that register's write. -/
theorem step_hostWrite_port {r : PortReg} (hr : portAt off = some r) (hk : s.env.hostStuck = false)
    (h : s.env.inputs = .host (.write (s.params.pcsBase + off) 4 v) :: rest) :
    step s = .next ((withInputs s rest).writePort r v) := by
  obtain ⟨ha, ho, hc⟩ := portAt_isRegister hr
  simp [step_hostWrite hk h, hostWrite, ha, ho, State.writeRegister, hc, hr]

/-- A HOST read of a CSR register gives the register and changes nothing else. -/
theorem step_hostRead_csr {r : Csr} (hr : csrAt off = some r) (hk : s.env.hostStuck = false)
    (h : s.env.inputs = .host (.read (s.params.pcsBase + off) 4) :: rest) :
    step s = .next { s with env := { s.env with inputs := rest, hostData := s.readCsr r } } := by
  obtain ⟨ha, ho⟩ := csrAt_isRegister hr
  rw [step_hostRead hk h, hostRead, if_pos ha, if_pos ho, State.readRegister, hr]
  cases r <;> rfl

/-- A HOST read of a command-port register gives the register and changes nothing else. -/
theorem step_hostRead_port {r : PortReg} (hr : portAt off = some r) (hk : s.env.hostStuck = false)
    (h : s.env.inputs = .host (.read (s.params.pcsBase + off) 4) :: rest) :
    step s = .next { s with env := { s.env with inputs := rest, hostData := s.readPort r } } := by
  obtain ⟨ha, ho, hc⟩ := portAt_isRegister hr
  rw [step_hostRead hk h, hostRead, if_pos ha, if_pos ho, State.readRegister, hc, hr]
  cases r <;> rfl

end Bus

/-! ### CMD, DPTCCR and PSR -/

/-- A CMD write while idle (10_state R39). -/
theorem writeCmd_idle {s : State} (h : psrBusy s.psr = false) (c : Word) :
    s.writeCmd c = { s with psr := s.psr ||| 0x1, result := 0, rval0 := 0, rval1 := 0,
                            seq := .run { word := c, args := s.args, todo := [.start] } } := by
  rw [State.writeCmd, h]
  rfl

/-- A CMD write while BUSY is dropped and sets OVR (10_state R39). -/
theorem writeCmd_busy {s : State} (h : psrBusy s.psr = true) (c : Word) :
    s.writeCmd c = { s with psr := s.psr ||| 0x2 } := by
  rw [State.writeCmd, h]
  rfl

/-- Settles O7: a CMD write is `writeCmd`, idle or BUSY. -/
theorem cmdWriteStartsACommandOrSetsOvr : Obligations.CmdWriteStartsACommandOrSetsOvr := by
  intro s rest c hk
  refine ⟨fun h hb => ?_, fun h hb => ?_, fun h => step_hostRead_port (r := .cmd) rfl hk h⟩
  · rw [step_hostWrite_port (r := .cmd) rfl hk h]
    exact congrArg _ (writeCmd_idle (s := withInputs s rest) hb c)
  · rw [step_hostWrite_port (r := .cmd) rfl hk h]
    exact congrArg _ (writeCmd_busy (s := withInputs s rest) hb c)

/-- DPTC_EN and DPTC_MASK after a write of DPTCCR are the bits written (10_state R32). -/
theorem enMask_dptccrWrite (p : Params) (old v : Word) :
    (dptccrWrite p old v).extractLsb' 0 2 = v.extractLsb' 0 2 := by
  unfold dptccrWrite
  cases bit v 0 <;> cases p.hasSdma <;> ext i hi <;> interval_cases i <;> simp

/-- RCEN after a write of DPTCCR is the field written (10_state R32). -/
theorem rcen_dptccrWrite (p : Params) (old v : Word) :
    (dptccrWrite p old v).extractLsb' 4 4 = v.extractLsb' 4 4 := by
  unfold dptccrWrite
  cases bit v 0 <;> cases p.hasSdma <;> ext i hi <;> interval_cases i <;> simp

/-- VOLT_VALID exists with SDMA only, where a written 1 sets it and a written 0 is ignored (10_state R32, R35). -/
theorem voltValid_dptccrWrite (p : Params) (old v : Word) :
    (dptccrWrite p old v).getLsbD 8 = (p.hasSdma && (old.getLsbD 8 || v.getLsbD 8)) := by
  unfold dptccrWrite
  cases bit v 0 <;> cases p.hasSdma <;> simp

/-- The bits of DPTCCR above VOLT_VALID are reserved (10_state R32). -/
theorem high_dptccrWrite (p : Params) (old v : Word) : (dptccrWrite p old v).extractLsb' 9 23 = 0 := by
  unfold dptccrWrite
  cases bit v 0 <;> cases p.hasSdma <;> ext i hi <;> interval_cases i <;> simp

/-- Settles O59: a HOST write of either register is `dptccrWrite` or `psrWrite`, taken field by field. -/
theorem dptccrAndPsrWritesActFieldByField : Obligations.DptccrAndPsrWritesActFieldByField := by
  intro s rest v hk
  refine ⟨fun h => ?_, step_hostWrite_port (r := .psr) rfl hk, step_hostRead_csr (r := .dptccr) rfl hk,
    step_hostRead_port (r := .psr) rfl hk⟩
  exact ⟨dptccrWrite s.params s.dptccr v, step_hostWrite_csr (r := .dptccr) rfl hk h, enMask_dptccrWrite ..,
    dptcCause_dptccrWrite .., rcen_dptccrWrite .., voltValid_dptccrWrite .., high_dptccrWrite ..⟩

/-! ### SW_DONE -/

/-- No write of a register sets SW_DONE (10_state R26). -/
theorem swDone_writeCsr {s : State} (h : pllsrSwDone s.pllsr = false) (r : Csr) (v : Word) :
    pllsrSwDone (s.writeCsr r v).pllsr = false := by
  cases r with
  | div =>
    simp only [State.writeCsr, State.writeDiv]
    split
    · simpa [pllsrSwDone, bit] using h
    · exact h
  | pllsr => exact pllsrSwDone_pllsrWrite h
  | _ => exact h

theorem swDone_envPllLock {s : State} (h : pllsrSwDone s.pllsr = false) :
    pllsrSwDone (envPllLock s).pllsr = false := by
  unfold envPllLock
  split
  · cases s.pllTarget <;> simpa [pllsrSwDone, bit] using h
  · exact h

theorem swDone_reset (p : Params) (e : Env) : pllsrSwDone (State.resetIn p e).pllsr = false := by
  change pllsrSwDone (pllsrReset p) = false
  unfold pllsrReset
  split <;> split <;> decide

/-- A step that sets SW_DONE is the switch's completion (10_state R26, R27). -/
theorem CsrMove.swDone_set {s t : State} (h : CsrMove s t) (hs : pllsrSwDone s.pllsr = false)
    (ht : pllsrSwDone t.pllsr = true) : ∃ rest, s.env.inputs = .pllDone :: rest := by
  suffices hkeep : (∃ rest, s.env.inputs = .pllDone :: rest) ∨ pllsrSwDone t.pllsr = false from
    hkeep.resolve_right (by simp [ht])
  cases h with
  | pllDone hi => exact .inl ⟨_, hi⟩
  | written hw =>
    obtain he | ⟨r, v, he⟩ := hw
    · have hp : t.pllsr = s.pllsr := congrArg CsrFile.pllsr he
      exact .inr (hp ▸ hs)
    · have hp : t.pllsr = (s.writeCsr r v).pllsr := congrArg CsrFile.pllsr he
      exact .inr (hp ▸ swDone_writeCsr hs r v)
  | @pllLock rest => exact .inr (swDone_envPllLock (s := withInputs s rest) hs)
  | @cause c rest =>
    obtain he | ⟨-, -, -, he⟩ := envDptc_cases c (withInputs s rest) <;> rw [he] <;> exact .inr hs
  | @sdma w c rest =>
    obtain he | ⟨u, q, -, -, -, -, -, -, he⟩ := envSdma_cases w c (withInputs s rest) <;> rw [he] <;> exact .inr hs
  | reset => exact .inr (swDone_reset ..)

/-- Settles O11: `pllsrWrite` for the writes, `step_csrMove` for the steps. -/
theorem swDoneIsClearedByOneAndSetByTheSwitchOnly : Obligations.SwDoneIsClearedByOneAndSetByTheSwitchOnly :=
  ⟨fun _ _ _ hk h => step_hostWrite_csr (r := .pllsr) rfl hk h, fun _ _ => rfl,
    fun _ _ h hs ht => (step_csrMove h).swDone_set hs ht⟩

/-! ### CAUSE -/

/-- A register write leaves CAUSE, or disables the block and clears it (10_state R33). -/
theorem cause_writeCsr (s : State) (r : Csr) (v : Word) :
    dptcCause (s.writeCsr r v).dptccr = dptcCause s.dptccr ∨
      (dptcEn (s.writeCsr r v).dptccr = false ∧ dptcCause (s.writeCsr r v).dptccr = 0) := by
  cases r with
  | dptccr =>
    change dptcCause (dptccrWrite ..) = _ ∨ (dptcEn (dptccrWrite ..) = _ ∧ dptcCause (dptccrWrite ..) = _)
    rw [dptcCause_dptccrWrite, dptcEn_dptccrWrite]
    cases v.getLsbD 0 <;> simp
  | div => exact .inl (by simp [State.writeCsr])
  | _ => exact .inl rfl

/-- A step that changes CAUSE disables the block, or is a step of the hardware of the variant (10_state R33, R35). -/
theorem CsrMove.cause_changed {s t : State} (h : CsrMove s t) (hne : dptcCause t.dptccr ≠ dptcCause s.dptccr) :
    (dptcEn t.dptccr = false ∧ dptcCause t.dptccr = 0) ∨
    (dptcEn s.dptccr = true ∧ dptcCause s.dptccr = 0 ∧
      ((s.params.hasSdma = false ∧ ∃ c rest, s.env.inputs = .dptcCause c :: rest) ∨
        (s.params.hasSdma = true ∧ ∃ w c rest, s.env.inputs = .sdma w c :: rest))) := by
  cases h with
  | written hw =>
    obtain he | ⟨r, v, he⟩ := hw
    · exact absurd (congrArg (dptcCause ∘ CsrFile.dptccr) he) hne
    · have hd : t.dptccr = (s.writeCsr r v).dptccr := congrArg CsrFile.dptccr he
      rw [hd] at hne ⊢
      exact .inl ((cause_writeCsr s r v).resolve_left hne)
  | @pllLock rest => exact absurd (by unfold envPllLock; split <;> rfl) hne
  | @pllDone rest => exact absurd (by unfold envPllDone; split <;> rfl) hne
  | @cause c rest hi =>
    obtain he | ⟨hen, hc, hS, -⟩ := envDptc_cases c (withInputs s rest)
    · exact absurd (by rw [he]; rfl) hne
    · exact .inr ⟨hen, hc, .inl ⟨hS, c, rest, hi⟩⟩
  | @sdma w c rest hi =>
    obtain he | ⟨u, q, -, -, hS, hen, -, hc, -⟩ := envSdma_cases w c (withInputs s rest)
    · exact absurd (by rw [he]; rfl) hne
    · exact .inr ⟨hen, hc, .inr ⟨hS, w, c, rest, hi⟩⟩
  | reset =>
    left
    change dptcEn (dptccrReset _) = false ∧ dptcCause (dptccrReset _) = 0
    unfold dptccrReset
    split <;> decide

/-- ENV_DPTC where it may raise a cause (10_state R33). -/
theorem envDptc_raises {s : State} (hen : dptcEn s.dptccr = true) (hc : dptcCause s.dptccr = 0)
    (hS : s.params.hasSdma = false) (c : Cause) : envDptc c s = { s with dptccr := s.dptccr ||| c.mask } := by
  simp [envDptc, hen, hc, hS, withCause_of_none hc]

/-- Settles O13: a raised cause by `withCause_of_none`, a write by `dptccrWrite_disable`, a step by `step_csrMove`. -/
theorem causeIsRaisedByHardwareAndClearedByDisable : Obligations.CauseIsRaisedByHardwareAndClearedByDisable := by
  refine ⟨fun s rest c hi hen hc hS => ?_, fun s v hv => dptccrWrite_disable hv,
    fun s t h hne => (step_csrMove h).cause_changed hne⟩
  rw [step_input hi]
  refine congrArg _ ((envDptc_raises (s := withInputs s rest) hen hc hS c).trans ?_)
  cases c <;> rfl

/-! ### SDMA -/

/-- ENV_SDMA where it is enabled and the cell it draws is there (10_state R35). -/
theorem envSdma_selects {s : State} {w : Nat} {t : Table} {q : Quad} (ht : s.table = some t)
    (hq : tableCell t s.currentFreqIndex w = some q) (hs : sdmaEnabled s = true) (c : Cause) :
    envSdma w c s = { s with dcvr := q, table := some { t with currWp := w }
                             dptccr := (s.dptccr &&& ~~~0x100) ||| c.mask } := by
  obtain ⟨-, -, -, hc⟩ := sdmaEnabled_iff.1 hs
  rw [← withCause_of_none ((dptcCause_and_not_voltValid _).trans hc)]
  simp [envSdma, ht, hq, hs]

/-- ENV_SDMA has no step where it is not enabled (10_state R35). -/
theorem envSdma_of_disabled {s : State} (hs : sdmaEnabled s = false) (w : Nat) (c : Cause) : envSdma w c s = s := by
  unfold envSdma
  repeat' split
  all_goals simp_all

/-- Settles O14: `envSdma` where it is enabled and where it is not; VOLT_VALID by `voltValid_dptccrWrite`. -/
theorem sdmaSelectsAWorkingPointInOneStep : Obligations.SdmaSelectsAWorkingPointInOneStep := by
  refine ⟨fun s rest w c t q hi ht hq => ⟨fun hS hen hvv hc => ?_, fun hoff => ?_⟩, fun s v hS => ?_⟩
  · have hon : sdmaEnabled (withInputs s rest) = true := sdmaEnabled_iff.2 ⟨hS, hen, hvv, hc⟩
    rw [step_input hi]
    refine congrArg _ ((envSdma_selects (s := withInputs s rest) ht hq hon c).trans ?_)
    cases c <;> rfl
  · have hdis : sdmaEnabled (withInputs s rest) = false := by
      rw [Bool.eq_false_iff, Ne, sdmaEnabled_iff]
      exact hoff
    rw [step_input hi]
    exact congrArg _ (envSdma_of_disabled hdis w c)
  · change (dptccrWrite s.params s.dptccr v).getLsbD 8 = _
    rw [voltValid_dptccrWrite, hS, Bool.true_and]
    rfl

/-! ### The PLL switch -/

/-- A run goes on from the state a step leaves. -/
theorem core_run_succ {s t : State} (h : step s = .next t) (n : Nat) : core.run (n + 1) s = core.run n t := by
  have hc : core.step s = .next t := h
  simp only [Host.Core.run, hc]

/-- A write that changes PLL_SEL while no switch is in progress starts one (10_state R27). -/
theorem writeDiv_starts {s : State} {v : Word} (hR : s.params.capRelock = true)
    (hsel : v.getLsbD 8 ≠ s.div.getLsbD 8) (hb : pllsrBusy s.pllsr = false) :
    s.writeDiv v = { s with div := v &&& 0x1FF, pllsr := s.pllsr ||| 0x4, pllTarget := v.getLsbD 8 } := by
  have hmask : divMask s.params = 0x1FF := if_pos hR
  have hbit : divPllSel (v &&& 0x1FF) = v.getLsbD 8 := by simp [divPllSel, bit]
  rw [State.writeDiv, hmask, hbit, if_pos ⟨hsel, hb⟩]

/-- The switch does not complete before the target is locked (10_state R27 step 2). -/
theorem envPllDone_of_unlocked {s : State} (h : pllsrLock s.pllsr s.pllTarget = false) : envPllDone s = s := by
  simp [envPllDone, h]

/-- ENV_PLL locks the target of a switch in progress (10_state R27 step 1). -/
theorem envPllLock_locks {s : State} (hb : pllsrBusy s.pllsr = true) (h : pllsrLock s.pllsr s.pllTarget = false) :
    envPllLock s = { s with pllsr := s.pllsr ||| (if s.pllTarget then 0x2 else 0x1) } := by
  simp [envPllLock, hb, h]

/-- ENV_PLL completes a switch whose target is locked (10_state R27 step 2). -/
theorem envPllDone_completes {s : State} (hb : pllsrBusy s.pllsr = true) (h : pllsrLock s.pllsr s.pllTarget = true) :
    envPllDone s = { s with pllsr := (s.pllsr &&& ~~~0xC) ||| (if s.pllTarget then 0x18 else 0x10) } := by
  simp [envPllDone, hb, h]

/-- PLLSR while a switch to `b` is in progress and its target is locked. -/
theorem pllsr_locking (w : Word) (b : Bool) :
    (w ||| 0x4) ||| (if b then 0x2 else 0x1) = w ||| (if b then 0x6 else 0x5) := by
  cases b <;> simp [BitVec.or_assoc]

/-- PLLSR after the switch to `b`, where none was in progress before it. -/
theorem pllsr_switched {w : Word} (hb : w.getLsbD 2 = false) (b : Bool) :
    ((w ||| (if b then 0x6 else 0x5)) &&& ~~~0xC) ||| (if b then 0x18 else 0x10) =
      if b then w ||| 0x1A else (w &&& ~~~0x8) ||| 0x11 := by
  have h2 : w[2] = false := hb
  cases b <;> ext i hi <;> interval_cases i <;> simp [h2]

/-- `s` after a write of `v` to DIV that has started a switch, with PLLSR at `w` and `ins` to come. -/
def switching (s : State) (v w : Word) (ins : List Input) : State :=
  { s with div := v &&& 0x1FF, pllsr := w, pllTarget := v.getLsbD 8, env := { s.env with inputs := ins } }

section Switch
variable {s : State} {v w : Word} {rest : List Input}

theorem step_startsSwitch (hk : s.env.hostStuck = false) (hR : s.params.capRelock = true)
    (hsel : v.getLsbD 8 ≠ s.div.getLsbD 8) (hb : pllsrBusy s.pllsr = false)
    (hi : s.env.inputs = .host (.write s.params.pcsBase 4 v) :: rest) :
    step s = .next (switching s v (s.pllsr ||| 0x4) rest) := by
  rw [step_hostWrite_csr (r := .div) (off := 0) rfl hk hi]
  exact congrArg _ (writeDiv_starts (s := withInputs s rest) hR hsel hb)

theorem step_switch_notYet (hl : pllsrLock w (v.getLsbD 8) = false) :
    step (switching s v w (.pllDone :: rest)) = .next (switching s v w rest) := by
  rw [step_input (rest := rest) rfl]
  exact congrArg _ (envPllDone_of_unlocked (s := switching s v w rest) hl)

theorem step_switch_locks (hb : pllsrBusy w = true) (hl : pllsrLock w (v.getLsbD 8) = false) :
    step (switching s v w (.pllLock :: rest)) =
      .next (switching s v (w ||| (if v.getLsbD 8 then 0x2 else 0x1)) rest) := by
  rw [step_input (rest := rest) rfl]
  exact congrArg _ (envPllLock_locks (s := switching s v w rest) hb hl)

theorem step_switch_completes (hb : pllsrBusy w = true) (hl : pllsrLock w (v.getLsbD 8) = true) :
    step (switching s v w (.pllDone :: rest)) =
      .next (switching s v ((w &&& ~~~0xC) ||| (if v.getLsbD 8 then 0x18 else 0x10)) rest) := by
  rw [step_input (rest := rest) rfl]
  exact congrArg _ (envPllDone_completes (s := switching s v w rest) hb hl)

end Switch

/-- `LOCK[b]` is a bit of PLLSR (10_state R25). -/
theorem pllsrLock_eq (w : Word) (b : Bool) : pllsrLock w b = w.getLsbD (if b then 1 else 0) := by
  cases b <;> rfl

theorem pllsrLock_or_busy (w : Word) (b : Bool) : pllsrLock (w ||| 0x4) b = pllsrLock w b := by
  cases b <;> simp [pllsrLock, bit]

/-- Settles O12: the write starts the switch, the first completion has no step, then ENV_PLL locks and completes. -/
theorem pllSwitchLocksThenCompletes : Obligations.PllSwitchLocksThenCompletes := by
  intro s v hk hR hsel hb hl hi
  rw [← pllsrLock_eq] at hl
  have busy1 : pllsrBusy (s.pllsr ||| 0x4) = true := by simp [pllsrBusy, bit]
  have lock1 : pllsrLock (s.pllsr ||| 0x4) (v.getLsbD 8) = false := (pllsrLock_or_busy ..).trans hl
  have busy2 : pllsrBusy (s.pllsr ||| (if v.getLsbD 8 then 0x6 else 0x5)) = true := by
    cases v.getLsbD 8 <;> simp [pllsrBusy, bit]
  have lock2 : pllsrLock (s.pllsr ||| (if v.getLsbD 8 then 0x6 else 0x5)) (v.getLsbD 8) = true := by
    cases v.getLsbD 8 <;> simp [pllsrLock, bit]
  have start := step_startsSwitch hk hR hsel hb hi
  have notYet := step_switch_notYet (s := s) (rest := [.pllLock, .pllDone]) lock1
  have locks := step_switch_locks (s := s) (rest := [.pllDone]) busy1 lock1
  have completes := step_switch_completes (s := s) (rest := []) busy2 lock2
  rw [pllsr_locking] at locks
  rw [pllsr_switched hb] at completes
  refine ⟨?_, ?_, ?_⟩
  · rw [core_run_succ start]; rfl
  · rw [core_run_succ start, core_run_succ notYet, core_run_succ locks]; rfl
  · rw [core_run_succ start, core_run_succ notYet, core_run_succ locks, core_run_succ completes]; rfl

end Sys2Proof.Machine
end

section
/-! SUPPORT. Accesses of the HOST to the DATA window (20_memory R71, R73, R74): the bytes of a word, the word of some
bytes, and the window's part of the bus. -/

namespace Sys2Proof.Machine

/-! ### The bytes of a word -/

@[simp] theorem length_wordBytes (v : Word) : (wordBytes v).length = 4 := rfl

/-- The bytes of a word are its bits from the least significant byte up (20_memory R73). -/
theorem getElem_wordBytes (v : Word) (i : Nat) (h : i < (wordBytes v).length) :
    (wordBytes v)[i] = v.extractLsb' (8 * i) 8 := by
  rw [length_wordBytes] at h
  interval_cases i <;> rfl

/-! ### The number of some bytes -/

theorem bytesToNat_lt (bs : List Byte) : bytesToNat bs < 256 ^ bs.length := by
  induction bs with
  | nil => simp [bytesToNat]
  | cons b bs ih =>
    have hb : b.toNat < 256 := b.isLt
    simp only [bytesToNat, List.length_cons, Nat.pow_succ]
    omega

/-- The digits of the number in base 256 are the bytes, and 0 above them. -/
theorem digit_bytesToNat (bs : List Byte) (k : Nat) :
    bytesToNat bs / 256 ^ k % 256 = (bs[k]?.getD 0).toNat := by
  induction bs generalizing k with
  | nil => simp [bytesToNat]
  | cons b bs ih =>
    have hb : b.toNat < 256 := b.isLt
    cases k with
    | zero => simp only [bytesToNat, Nat.pow_zero, List.getElem?_cons_zero, Option.getD_some]; omega
    | succ k =>
      have hdiv : bytesToNat (b :: bs) / 256 = bytesToNat bs := by simp only [bytesToNat]; omega
      rw [Nat.pow_succ, Nat.mul_comm, ← Nat.div_div_eq_div_mul, hdiv, ih, List.getElem?_cons_succ]

/-- The word of at most four bytes has them from the least significant up, and 0 above them (20_memory R73). -/
theorem extract_bytesToNat {bs : List Byte} (h : bs.length ≤ 4) (k : Nat) :
    (BitVec.ofNat 32 (bytesToNat bs)).extractLsb' (8 * k) 8 = bs[k]?.getD 0 := by
  have hlt : bytesToNat bs < 2 ^ 32 := calc
    bytesToNat bs < 256 ^ bs.length := bytesToNat_lt bs
    _ ≤ 256 ^ 4 := Nat.pow_le_pow_right (by decide) h
  apply BitVec.eq_of_toNat_eq
  rw [BitVec.extractLsb'_toNat, BitVec.toNat_ofNat, Nat.mod_eq_of_lt hlt, Nat.shiftRight_eq_div_pow, Nat.pow_mul,
    ← digit_bytesToNat]

/-- The byte MemRead gives at an index, and none past the last. -/
theorem getD_readBytes (m : Memory) (a n k : Nat) :
    (m.readBytes a n)[k]?.getD 0 = if k < n then m.read (a + k) else 0 := by
  by_cases hk : k < n
  · simp [hk, Memory.getElem_readBytes]
  · simp [hk]

/-! ### The window on the bus -/

theorem isRegisterOffset_data (off : Nat) : isRegisterOffset (0x1000 + off) = false := by
  simp only [isRegisterOffset, decide_eq_false_iff_not]
  omega

section DataAccess
variable {s : State} {rest : List Input} {off size : Nat} {v : Word}

/-- The bus admits 1, 2 or 4 bytes of the window at a multiple of the size (20_memory R71). -/
theorem dataAccess_admitted (ho : off < 8192) (hs : size = 1 ∨ size = 2 ∨ size = 4) (ha : off % size = 0) :
    accessAdmitted (0x1000 + off) size = true := by
  have hin : isDataOffset (0x1000 + off) = true := by
    simp only [isDataOffset, Bool.and_eq_true, decide_eq_true_eq]
    omega
  have hal : (0x1000 + off) % size = 0 := by
    rcases hs with rfl | rfl | rfl <;> omega
  simp [accessAdmitted, hin, hal, hs, or_assoc]

/-- An access the bus admits ends inside the window. -/
theorem dataAccess_inside (ho : off < 8192) (hs : size = 1 ∨ size = 2 ∨ size = 4) (ha : off % size = 0) :
    off + size ≤ Memory.size := by
  unfold Memory.size
  rcases hs with rfl | rfl | rfl <;> omega

/-- A HOST write of the window is MemWrite of the low bytes (20_memory R73). -/
theorem step_hostWrite_data (hadm : accessAdmitted (0x1000 + off) size = true) (hk : s.env.hostStuck = false)
    (h : s.env.inputs = .host (.write (s.params.pcsBase + (0x1000 + off)) size v) :: rest) :
    step s = .next { s with data := s.data.writeBytes off ((wordBytes v).take size)
                            env := { s.env with inputs := rest } } := by
  simp [step_hostWrite hk h, hostWrite, hadm, isRegisterOffset_data, withInputs]

/-- A HOST read of the window is MemRead, as one number (20_memory R73). -/
theorem step_hostRead_data (hadm : accessAdmitted (0x1000 + off) size = true) (hk : s.env.hostStuck = false)
    (h : s.env.inputs = .host (.read (s.params.pcsBase + (0x1000 + off)) size) :: rest) :
    step s = .next { s with env := { s.env with
      inputs := rest, hostData := BitVec.ofNat 32 (bytesToNat (s.data.readBytes off size)) } } := by
  simp [step_hostRead hk h, hostRead, hadm, isRegisterOffset_data, withInputs]

end DataAccess

/-- MemWrite of the low bytes of a word, byte by byte (20_memory R73, R74). -/
theorem read_writeBytes_take {m : Memory} (hm : m.wf = true) {off size : Nat} (h4 : size ≤ 4)
    (hin : off + size ≤ Memory.size) (v : Word) (a : Nat) :
    (m.writeBytes off ((wordBytes v).take size)).read a =
      if off ≤ a ∧ a < off + size then v.extractLsb' (8 * (a - off)) 8 else m.read a := by
  have hlen : ((wordBytes v).take size).length = size := by simp [h4]
  rw [Memory.read_writeBytes hm off _ (by rwa [hlen])]
  simp only [hlen, List.getElem_take, getElem_wordBytes, dite_eq_ite]

/-- Settles O10: a write stores the bytes of the word, a read gives the number of the bytes. -/
theorem dataWindowIsLittleEndian : Obligations.DataWindowIsLittleEndian := by
  intro s rest off size v hk hwf ho hs ha
  have hadm := dataAccess_admitted ho hs ha
  have hin := dataAccess_inside ho hs ha
  have h4 : size ≤ 4 := by omega
  refine ⟨fun h => ⟨_, step_hostWrite_data hadm hk h, read_writeBytes_take hwf h4 hin v⟩,
    fun h => ⟨_, step_hostRead_data hadm hk h, fun k => ?_⟩⟩
  rw [extract_bytesToNat (by simpa using h4), getD_readBytes]

end Sys2Proof.Machine
end

section
/-! SUPPORT. Command words (30_encoding R90 to R92, R98): the two fields of a word, what the decoder answers, and SEQ's
step on a word that decodes and on a reserved one. -/

namespace Sys2Proof

/-! ### The fields of a command word -/

/-- A word is its fields Z and OP (30_encoding R90). -/
theorem zField_append_opField (w : Word) : w.extractLsb' 8 24 ++ w.extractLsb' 0 8 = w := by
  rw [BitVec.extractLsb'_append_extractLsb'_eq_extractLsb' (start₁ := 0) (len₁ := 8) rfl,
    BitVec.extractLsb'_eq_self]

@[simp] theorem zField_encode (i : Instr) : (encode i).extractLsb' 8 24 = 0 := BitVec.extractLsb'_append_eq_left

@[simp] theorem opField_encode (i : Instr) : (encode i).extractLsb' 0 8 = i.opcode := BitVec.extractLsb'_append_eq_right

/-- The word of a command is the one with Z = 0 and the command's opcode (30_encoding R90). -/
theorem eq_encode_iff {w : Word} {i : Instr} :
    w = encode i ↔ w.extractLsb' 8 24 = 0 ∧ i.opcode = w.extractLsb' 0 8 := by
  constructor
  · rintro rfl
    exact ⟨zField_encode i, (opField_encode i).symm⟩
  · rintro ⟨hz, hop⟩
    rw [← zField_append_opField w, hz, ← hop, encode]

/-! ### The decoder -/

theorem instrOfOpcode_opcode (i : Instr) : instrOfOpcode i.opcode.toNat = some i := by cases i <;> rfl

/-- The opcode map gives a command at its own opcode and nowhere else (30_encoding R92). -/
theorem instrOfOpcode_eq_some_iff {n : Nat} {i : Instr} : instrOfOpcode n = some i ↔ i.opcode.toNat = n := by
  constructor
  · intro h
    unfold instrOfOpcode at h
    split at h <;> cases h <;> rfl
  · rintro rfl
    exact instrOfOpcode_opcode i

/-- The decoder answers the command of a word with Z = 0 whose OP the opcode map has (30_encoding R91). -/
theorem decode_eq_ok_iff_fields {w : Word} {i : Instr} :
    decode w = .ok i ↔ w.extractLsb' 8 24 = 0 ∧ instrOfOpcode (w.extractLsb' 0 8).toNat = some i := by
  unfold decode
  split
  · rename_i hz
    cases instrOfOpcode (w.extractLsb' 0 8).toNat <;> simp [hz]
  · rename_i hz
    simp only [hz, false_and, reduceCtorEq]

/-- A word decodes to a command exactly when it is the command's word (30_encoding R91). -/
theorem decode_eq_ok_iff {w : Word} {i : Instr} : decode w = .ok i ↔ w = encode i := by
  rw [decode_eq_ok_iff_fields, instrOfOpcode_eq_some_iff, BitVec.toNat_inj, eq_encode_iff]

theorem decode_encode (i : Instr) : decode (encode i) = .ok i := decode_eq_ok_iff.2 rfl

/-- The decoder refuses a word exactly when it is no command's word. -/
theorem decode_eq_error_iff {w : Word} : (∃ e, decode w = .error e) ↔ ∀ i, w ≠ encode i := by
  simp only [ne_eq, ← decode_eq_ok_iff]
  cases decode w <;> simp

/-- The reserved words (30_encoding R98): those that are no command's word. -/
theorem ne_encode_iff {w : Word} :
    (∀ i, w ≠ encode i) ↔ w.extractLsb' 8 24 ≠ 0 ∨ ∀ i : Instr, i.opcode ≠ w.extractLsb' 0 8 := by
  simp only [ne_eq, eq_encode_iff, not_and_or, forall_or_left]

/-- Settles O1: a command's word is the one the decoder answers with it, and every other word is reserved. -/
theorem decodeAnswersExactlyTheCommandWords : Obligations.DecodeAnswersExactlyTheCommandWords := fun _ =>
  ⟨fun _ => decode_eq_ok_iff, decode_eq_error_iff.trans ne_encode_iff⟩

/-- Settles O2: the command words by the decoder's law, the reserved ones by evaluation. -/
theorem sampleWordsDecodeByTheOpcodeMap : Obligations.SampleWordsDecodeByTheOpcodeMap :=
  ⟨decode_encode .dvfsIntscale, decode_encode .dvfsRelock, decode_encode .lpmEnter, decode_encode .dptcGetState,
    decode_encode .setFreqIndex, decode_encode .getTable, decode_encode .logRead, decode_encode .sysResume,
    rfl, rfl, rfl⟩

namespace Machine

/-! ### SEQ's step -/

section SeqStep
variable {s : State} {rest : List Input} {job : Job} {i : Instr}

/-- A turn of SEQ that no interrupt comes before. -/
theorem step_seq (h : s.env.inputs = .seq :: rest) (hirq : s.irqEnabled = false) :
    step s = stepSeq (withInputs s rest) := by
  simp [step_input h, stepInput, hirq, withInputs]

/-- The default turn is SEQ's while it runs a command and no interrupt is enabled. -/
theorem step_default_seq (h : s.env.inputs = []) (hirq : s.irqEnabled = false) (hj : s.seq = .run job) :
    step s = stepSeq s := by
  simp [step, stepAny, h, stepDefault, hirq, hj]

/-- SEQ runs the command its word decodes to (30_encoding R91). -/
theorem stepSeq_of_decode (hj : s.seq = .run job) (hd : decode job.word = .ok i) : stepSeq s = exec i s := by
  simp [stepSeq, hj, hd]

/-- SEQ answers a reserved word with Unsupported(UnknownCommand) (30_encoding R91, R98). -/
theorem stepSeq_of_reserved (hj : s.seq = .run job) (hw : ∀ i, job.word ≠ encode i) :
    stepSeq s = .next (s.raiseErr .unknownCommand) := by
  obtain ⟨e, he⟩ := decode_eq_error_iff.2 hw
  simp [stepSeq, hj, he, runUnknown]

end SeqStep

/-- A masked interrupt is not enabled (10_state R34). -/
theorem irqLine_or_mask (w : Word) : irqLine (w ||| 0x2) = false := by simp [irqLine, dptcMask, bit]

/-- A command given to SEQ has no interrupt before its first step (log 7). -/
theorem irqEnabled_startWord (s : State) (w : Word) : (s.startWord w).irqEnabled = false := by
  have masked : (s.startWord w).irqEnabled =
      (irqLine (if s.irqEnabled then s.dptccr ||| 0x2 else s.dptccr) && !s.irqOff) := rfl
  cases h : s.irqEnabled with
  | true => rw [masked, h, if_pos rfl, irqLine_or_mask, Bool.false_and]
  | false => rw [masked, h]; exact h

/-- A command given to SEQ takes its first step next (log 7). -/
theorem step_startWord (s : State) (i : Instr) :
    step (s.startWord (encode i)) = exec i (withInputs (s.startWord (encode i)) s.env.inputs) := by
  rw [step_seq rfl (irqEnabled_startWord s (encode i))]
  exact stepSeq_of_decode rfl (decode_encode i)

/-- Settles O3: each of the three turns is SEQ's, and SEQ runs what its word decodes to. -/
theorem stepRunsTheDecodedCommand : Obligations.StepRunsTheDecodedCommand := by
  refine ⟨fun s rest job i hin hirq hj hd => ?_, fun s job i hin hirq hj hd => ?_, fun s nbits i => ?_⟩
  · rw [step_seq hin hirq]
    exact stepSeq_of_decode hj hd
  · rw [step_default_seq hin hirq hj]
    exact stepSeq_of_decode hj hd
  · rw [State.withFetchWord, BitVec.ofNat_toNat, BitVec.setWidth_eq, step_startWord]
    rfl

/-- Settles O4: a reserved word raises UnknownCommand, and with dvfs_lock free a raise moves RESULT, BUSY and SEQ
only. -/
theorem reservedWordRaisesUnknownCommand : Obligations.ReservedWordRaisesUnknownCommand := by
  intro s rest job hin hirq hj hlock hres
  have hraise : (withInputs s rest).raiseErr .unknownCommand = raised (withInputs s rest) 0x1305 :=
    raiseErr_of_free (s := withInputs s rest) hlock .unknownCommand
  rw [step_seq hin hirq, stepSeq_of_reserved (s := withInputs s rest) hj (ne_encode_iff.2 hres), hraise]

end Machine

end Sys2Proof
end

section
/-! SUPPORT. The DVFS arithmetic (41 R121, R122, R127 to R129, R132, R133, R136, R137, R142): the clocks of the
reference model, the BRMM points, the dividers and the word PLL scaling writes. -/

namespace Sys2Proof.Machine

/-! ### The clock model -/

theorem pllReserved_iff {r : Word} : pllReserved r = true ↔ pllMfd r = 0 ∨ pllMfi r < 5 := by
  rw [pllReserved, Bool.or_eq_true, beq_iff_eq, decide_eq_true_iff]
  exact Iff.rfl

theorem pllReserved_eq_false {r : Word} (hd : 1 ≤ pllMfd r) (hi : 5 ≤ pllMfi r) : pllReserved r = false := by
  rw [Bool.eq_false_iff, ne_eq, pllReserved_iff]
  omega

/-- The formula of R121 on legal fields whose numerator is not negative. -/
theorem pllFormula_of_nonneg {refHz : Nat} {r : Word} (hd : 1 ≤ pllMfd r) (hi : 5 ≤ pllMfi r)
    (hn : 0 ≤ ((pllMfi r * pllMfd r : Nat) : Int) + pllMfn r) :
    pllFormula refHz r =
      .ok (2 * refHz * (((pllMfi r * pllMfd r : Nat) : Int) + pllMfn r).toNat / (pllMfd r * (pllPdf r + 1))) := by
  have hnum : (2 * (refHz : Int) * (((pllMfi r * pllMfd r : Nat) : Int) + pllMfn r)).toNat =
      2 * refHz * (((pllMfi r * pllMfd r : Nat) : Int) + pllMfn r).toNat :=
    Int.toNat_mul (by positivity) hn
  have hnonneg : ¬ 2 * (refHz : Int) * (((pllMfi r * pllMfd r : Nat) : Int) + pllMfn r) < 0 :=
    not_lt.2 (mul_nonneg (by positivity) hn)
  rw [pllFormula, if_neg (by rw [pllReserved_eq_false hd hi]; decide)]
  dsimp only
  rw [if_neg hnonneg, hnum]

/-- A PLL's clock of legal fields is some frequency (60 R325). -/
theorem pllHz_isOk {p : Params} {turbo : Bool} {r : Word} (hr : pllReserved r = false) :
    ∃ f, pllHz p turbo r = .ok f := by
  cases h : pllHz p turbo r with
  | ok f => exact ⟨f, rfl⟩
  | error e => exact absurd (pllHz_error_iff.1 h).1 (by simp [hr])

/-- The clocks of the reference definition are those of the formula (41 R121). -/
theorem clockHz_reference {p : Params} (hm : p.clockModelFn = .reference) {q : ClockQuery} {f : Nat}
    (hf : pllFormula p.refHz (queryPllWord q) = .ok f) : clockHz p q = clockOfPll f q := by
  simp only [clockHz, hm, clockReference, hf]

/-- The CPU clock faults on reserved fields of the PLL, whatever CLOCK_MODEL is (60 R325). -/
theorem cpuHz_of_reserved (p : Params) (turbo : Bool) {r : Word} (d : Word) (hr : pllReserved r = true) :
    cpuHz p turbo r d = .error .pllFieldReserved := by
  cases hm : p.clockModelFn with
  | reference =>
    have hf := pllFormula_error_iff (hz := p.refHz).2 ⟨hr, rfl⟩
    simp only [cpuHz, clockHz, hm, clockReference, queryPllWord, hf]
  | free => simp only [cpuHz, clockHz, hm, clockFree, clockFault, queryPllWord, hr, if_true]

/-- A BRMM point above 4 is reserved (41 R122). -/
theorem brmmPoint_reserved (pll ahb : Nat) {k : Nat} (hk : 4 < k) : brmmPoint pll ahb k = .error .brmmReserved :=
  if_pos hk

/-- The CPU clock faults on a reserved BRMM, whatever CLOCK_MODEL is (60 R325). -/
theorem cpuHz_of_brmm (p : Params) (turbo : Bool) {r d : Word} (hr : pllReserved r = false) (hd : 4 < divBrmm d) :
    cpuHz p turbo r d = .error .brmmReserved := by
  cases hm : p.clockModelFn with
  | reference =>
    obtain ⟨f, hf⟩ := pllHz_isOk (p := p) (turbo := turbo) hr
    rw [cpuHz_reference hm, cpuPoint, hf]
    exact brmmPoint_reserved _ _ hd
  | free => simp [cpuHz, clockHz, hm, clockFree, clockFault, queryPllWord, hr, brmmMax, hd]

/-- Settles O15: legal fields give the formula, reserved fields of the PLL or of BRMM fault. -/
theorem pllFrequencyIsTheFormula : Obligations.PllFrequencyIsTheFormula := by
  intro p turbo r d mfn mfi mfd pdf pll ahb
  refine ⟨fun hm hd hi hn => ?_, fun hr => ?_, fun hd hi hk => cpuHz_of_brmm p turbo (pllReserved_eq_false hd hi) hk⟩
  · have hf : pllFormula p.refHz r = .ok pll := pllFormula_of_nonneg hd hi hn
    exact ⟨clockHz_reference hm hf, clockHz_reference hm hf, clockHz_reference hm hf, clockHz_reference hm hf⟩
  · have hres : pllReserved r = true := pllReserved_iff.2 hr
    exact ⟨pllHz_error_iff.2 ⟨hres, rfl⟩, cpuHz_of_reserved p turbo d hres⟩

/-! ### The BRMM points -/

section BrmmPoint
variable {pll ahb j k : Nat}

/-- A BRMM point with a divisor (41 R122). -/
theorem brmmPoint_eq (hk : k ≤ 4) (hden : (4 - k) * ahb + k * pll ≠ 0) :
    brmmPoint pll ahb k = .ok (4 * pll * ahb / ((4 - k) * ahb + k * pll)) := by
  rw [brmmPoint, if_neg (show ¬ brmmMax < k from not_lt.2 hk), if_neg hden]

theorem brmmPoint_divisorZero (hk : k ≤ 4) (hden : (4 - k) * ahb + k * pll = 0) :
    brmmPoint pll ahb k = .error .brmmDivisorZero := by
  rw [brmmPoint, if_neg (show ¬ brmmMax < k from not_lt.2 hk), if_pos hden]

theorem brmmPoint_ok {x : Nat} (h : brmmPoint pll ahb k = .ok x) :
    k ≤ 4 ∧ x = 4 * pll * ahb / ((4 - k) * ahb + k * pll) := by
  unfold brmmPoint at h
  split at h
  · cases h
  · split at h <;> cases h
    exact ⟨not_lt.1 ‹_›, rfl⟩

theorem brmmPoint_zero (ha : 0 < ahb) : brmmPoint pll ahb 0 = .ok pll := by
  rw [brmmPoint_eq (by omega) (by omega)]
  have hden : (4 - 0) * ahb + 0 * pll = 4 * ahb := by omega
  rw [hden, Nat.mul_right_comm, Nat.mul_div_cancel_left pll (by omega)]

theorem brmmPoint_four (hp : 0 < pll) : brmmPoint pll ahb 4 = .ok ahb := by
  rw [brmmPoint_eq (by omega) (by omega)]
  have hden : (4 - 4) * ahb + 4 * pll = 4 * pll := by omega
  rw [hden, Nat.mul_div_cancel_left ahb (by omega)]

/-- The divisor of a point grows with `k`, by `pll − ahb` each time. -/
theorem brmmDivisor_mono (hle : ahb ≤ pll) (hjk : j ≤ k) (hk : k ≤ 4) :
    (4 - j) * ahb + j * pll ≤ (4 - k) * ahb + k * pll := by
  obtain ⟨d, rfl⟩ := Nat.exists_eq_add_of_le hjk
  have hsplit : 4 - j = (4 - (j + d)) + d := by omega
  calc (4 - j) * ahb + j * pll = (4 - (j + d)) * ahb + j * pll + d * ahb := by rw [hsplit]; ring
    _ ≤ (4 - (j + d)) * ahb + j * pll + d * pll := by gcongr
    _ = (4 - (j + d)) * ahb + (j + d) * pll := by ring

theorem brmmDivisor_pos (ha : 0 < ahb) (hle : ahb ≤ pll) (hk : k ≤ 4) : 0 < (4 - k) * ahb + k * pll :=
  calc 0 < (4 - 0) * ahb + 0 * pll := by omega
    _ ≤ _ := brmmDivisor_mono hle (Nat.zero_le k) hk

end BrmmPoint

/-- Settles O16: the divisor grows from `4 * ahb` to `4 * pll`, so the points fall from `pll` to `ahb`. -/
theorem brmmPointsRunFromPllDownToAhb : Obligations.BrmmPointsRunFromPllDownToAhb := by
  intro pll ahb k
  refine ⟨brmmPoint_eq, brmmPoint_divisorZero, brmmPoint_reserved pll ahb, brmmPoint_zero, brmmPoint_four, ?_⟩
  intro j x y ha hle hjk hx hy
  obtain ⟨hj, rfl⟩ := brmmPoint_ok hx
  obtain ⟨hk, rfl⟩ := brmmPoint_ok hy
  exact Nat.div_le_div_left (brmmDivisor_mono hle hjk hk) (brmmDivisor_pos ha hle hj)

/-! ### The nearest point -/

section Nearest
variable {req pll ahb : Nat}

/-- `m` is the first of the points up to `n` whose error is least (41 R129). -/
def NearestUpTo (req pll ahb n m : Nat) : Prop :=
  m ≤ n ∧ (∀ k ≤ n, brmmErr req pll ahb m ≤ brmmErr req pll ahb k) ∧
    ∀ k < m, brmmErr req pll ahb m < brmmErr req pll ahb k

theorem nearestUpTo_zero : NearestUpTo req pll ahb 0 0 :=
  ⟨le_refl 0, fun k hk => by rw [Nat.le_zero.1 hk], fun _ hk => absurd hk (Nat.not_lt_zero _)⟩

/-- The nearer of the best so far and the next point is the best with that point. -/
theorem NearestUpTo.better {n m : Nat} (h : NearestUpTo req pll ahb n m) :
    NearestUpTo req pll ahb (n + 1) (brmmBetter req pll ahb m (n + 1)) := by
  obtain ⟨hmn, hmin, hfirst⟩ := h
  unfold brmmBetter
  split
  case isTrue hlt =>
    refine ⟨le_refl _, fun k hk => ?_, fun k hk => lt_of_lt_of_le hlt (hmin k (by omega))⟩
    obtain rfl | hk := Nat.eq_or_lt_of_le hk
    · exact le_refl _
    · exact hlt.le.trans (hmin k (by omega))
  case isFalse hge =>
    refine ⟨by omega, fun k hk => ?_, hfirst⟩
    obtain rfl | hk := Nat.eq_or_lt_of_le hk
    · exact not_lt.1 hge
    · exact hmin k (by omega)

/-- `find_nearest_brmm` gives the first of the five points whose error is least (41 R129). -/
theorem nearestUpTo_nearestBrmm (req pll ahb : Nat) : NearestUpTo req pll ahb 4 (nearestBrmm req pll ahb) :=
  nearestUpTo_zero.better.better.better.better

/-- The error of one of the five points, with no truncated subtraction. -/
theorem brmmErr_eq {k : Nat} (hk : k ≤ 4) :
    brmmErr req pll ahb k = ((4 * pll * ahb : Int) - req * ((4 - (k : Int)) * ahb + k * pll)).natAbs := by
  simp only [brmmErr]
  push_cast [hk]
  rfl

theorem brmmExact_iff {k : Nat} :
    brmmExact req pll ahb k = true ↔ req * ((4 - k) * ahb + k * pll) = 4 * pll * ahb := beq_iff_eq

theorem calcBrmm_of_exact {k : Nat} (hk : k ≤ 4) (hex : brmmExact req pll ahb k = true)
    (hlt : ∀ j < k, brmmExact req pll ahb j = false) : calcBrmm req pll ahb = k := by
  have hfind : [0, 1, 2, 3, 4].find? (brmmExact req pll ahb) = some k :=
    (List.find?_range_eq_some (n := 5)).2 ⟨hex, List.mem_range.2 (by omega), fun j hj => by simp [hlt j hj]⟩
  rw [calcBrmm, hfind]

theorem calcBrmm_of_none (h : ∀ k ≤ 4, brmmExact req pll ahb k = false) :
    calcBrmm req pll ahb = nearestBrmm req pll ahb := by
  have hfind : [0, 1, 2, 3, 4].find? (brmmExact req pll ahb) = none := by
    refine List.find?_eq_none.2 fun k hk => ?_
    have hk4 : k ≤ 4 := by simp only [List.mem_cons, List.not_mem_nil, or_false] at hk; omega
    simp [h k hk4]
  rw [calcBrmm, hfind]

/-- What `calc_brmm` gives is one of the five points (41 R128). -/
theorem calcBrmm_le (req pll ahb : Nat) : calcBrmm req pll ahb ≤ 4 := by
  unfold calcBrmm
  split
  case h_1 k hk =>
    have hmem := List.mem_of_find?_eq_some hk
    simp only [List.mem_cons, List.not_mem_nil, or_false] at hmem
    omega
  case h_2 => exact nearestBrmm_le req pll ahb

end Nearest

/-- Settles O17: the search finds the first exact point, and the fold keeps the first point of least error. -/
theorem brmmIsExactElseNearestInPeriod : Obligations.BrmmIsExactElseNearestInPeriod := by
  intro req pll ahb err
  obtain ⟨hle, hmin, hfirst⟩ := nearestUpTo_nearestBrmm req pll ahb
  have herr : ∀ {k}, k ≤ 4 → brmmErr req pll ahb k = err k := brmmErr_eq
  have hinexact : ∀ {k}, req * ((4 - k) * ahb + k * pll) ≠ 4 * pll * ahb → brmmExact req pll ahb k = false :=
    fun h => Bool.eq_false_iff.2 fun hex => h (brmmExact_iff.1 hex)
  refine ⟨fun k hk hex hlt => calcBrmm_of_exact hk (brmmExact_iff.2 hex) fun j hj => hinexact (hlt j hj),
    fun h => calcBrmm_of_none fun k hk => hinexact (h k hk), hle, fun k hk => ?_, fun k hk => ?_⟩
  · rw [← herr hle, ← herr hk]
    exact hmin k hk
  · rw [← herr hle, ← herr (hk.le.trans hle)]
    exact hfirst k hk

/-! ### The dividers -/

/-- The divider of R132 and R133 keeps the result at or below the ceiling: without the increment by its own test,
with it because one more than the quotient always does. -/
theorem div_pdfFor_le (x : Nat) {y : Nat} (hy : 0 < y) : x / (pdfFor x y + 1) ≤ y := by
  unfold pdfFor
  split
  case isTrue habove =>
    have hpos : 0 < x / y := by
      refine Nat.div_pos (le_of_not_gt fun hlt => ?_) hy
      rw [Nat.div_eq_of_lt hlt, Nat.zero_sub, Nat.zero_add, Nat.div_one] at habove
      exact lt_asymm hlt habove
    rw [Nat.sub_add_cancel hpos]
    exact Nat.div_le_of_le_mul ((Nat.lt_mul_div_succ x hy).le.trans_eq (Nat.mul_comm ..))
  case isFalse hle => exact not_lt.1 hle

/-- The AHB clock that the relock's divider gives is at or below the ceiling (41 R142). -/
theorem le_mul_relockPdf (f : Nat) {bus : Nat} (hb : 0 < bus) : f ≤ bus * (relockPdf f bus + 1) := by
  have hlt := Nat.lt_mul_div_succ (f + bus - 1) hb
  have hle : bus * ((f + bus - 1) / bus) ≤ bus * (relockPdf f bus + 1) :=
    Nat.mul_le_mul_left bus (by unfold relockPdf; omega)
  rw [Nat.mul_add, Nat.mul_one] at hlt
  omega

/-- No smaller divider than the relock's would do (41 R142). -/
theorem mul_lt_of_lt_relockPdf {f bus p : Nat} (hb : 0 < bus) (hp : p < relockPdf f bus) : bus * (p + 1) < f := by
  have hle : bus * (p + 1 + 1) ≤ bus * ((f + bus - 1) / bus) :=
    Nat.mul_le_mul_left bus (by unfold relockPdf at hp; omega)
  have hdiv := Nat.mul_div_le (f + bus - 1) bus
  rw [Nat.mul_add, Nat.mul_one] at hle
  omega

/-- Settles O18: both dividers are `pdfFor` under their own maximum, and the relock's is a rounded-up quotient. -/
theorem dividersKeepTheClocksAtTheirCeilings : Obligations.DividersKeepTheClocksAtTheirCeilings :=
  ⟨fun x _ hy => ⟨div_pdfFor_le x hy, rfl, rfl⟩,
    fun f _ hb => ⟨le_mul_relockPdf f hb, fun _ => mul_lt_of_lt_relockPdf hb⟩⟩

/-! ### The word of PLL scaling -/

/-- A PLL word has its fields where R24 puts them, and no other bits. -/
theorem pllWord_fields (pdf mfi : BitVec 4) (mfd : BitVec 10) (mfn : Int) :
    (pllWord pdf.toNat mfd.toNat mfi.toNat mfn).extractLsb' 26 4 = pdf ∧
    (pllWord pdf.toNat mfd.toNat mfi.toNat mfn).extractLsb' 16 10 = mfd ∧
    (pllWord pdf.toNat mfd.toNat mfi.toNat mfn).extractLsb' 11 4 = mfi ∧
    (pllWord pdf.toNat mfd.toNat mfi.toNat mfn).extractLsb' 0 11 = BitVec.ofInt 11 mfn ∧
    pllWord pdf.toNat mfd.toNat mfi.toNat mfn &&& ~~~pllMask = 0 := by
  simp only [pllWord, BitVec.ofNat_toNat, pllMask]
  refine ⟨?_, ?_, ?_, ?_, ?_⟩ <;> ext i hi <;> interval_cases i <;> simp

section PllWith
variable {r : Word} {m : Nat} {n : Int}

/-- The new register keeps MFD and PDF, holds the new MFI, and has the bits of R24 only (41 R135). -/
theorem pllWith_fields (hm : m < 16) :
    pllPdf (pllWith r m n) = pllPdf r ∧ pllMfd (pllWith r m n) = pllMfd r ∧ pllMfi (pllWith r m n) = m ∧
    (pllWith r m n).extractLsb' 0 11 = BitVec.ofInt 11 n ∧ pllWith r m n &&& ~~~pllMask = 0 := by
  obtain ⟨hpdf, hmfd, hmfi, hmfn, hmask⟩ :=
    pllWord_fields (r.extractLsb' 26 4) (BitVec.ofNat 4 m) (r.extractLsb' 16 10) n
  have hm4 : (BitVec.ofNat 4 m).toNat = m := Nat.mod_eq_of_lt hm
  rw [hm4] at hpdf hmfd hmfi hmfn hmask
  exact ⟨congrArg BitVec.toNat hpdf, congrArg BitVec.toNat hmfd, (congrArg BitVec.toNat hmfi).trans hm4, hmfn, hmask⟩

/-- MFN holds any number of its range (10_state R24). -/
theorem pllMfn_pllWith (hm : m < 16) (hlo : -1024 ≤ n) (hhi : n < 1024) : pllMfn (pllWith r m n) = n := by
  obtain ⟨-, -, -, hmfn, -⟩ := pllWith_fields (r := r) (n := n) hm
  rw [pllMfn, hmfn, BitVec.toInt_ofInt]
  exact Int.bmod_eq_of_le (by omega) (by omega)

theorem pllMfn_pllWith_self (hm : m < 16) : pllMfn (pllWith r m (pllMfn r)) = pllMfn r := by
  obtain ⟨-, -, -, hmfn, -⟩ := pllWith_fields (r := r) (n := pllMfn r) hm
  rw [pllMfn, hmfn, pllMfn, BitVec.ofInt_toInt]

end PllWith

/-- What `pll_fields` gives: the floor quotient but at least 5, which fits MFI, and the remainder, which fits MFN
(41 R136). -/
theorem pllFields_ok {p : Params} {req : Nat} {r : Word} {x : Nat × Int}
    (h : pllFields p req (pllPdf r) (pllMfd r) = .ok x) :
    1 ≤ pllMfd r ∧ max (pllTotal p req (pllPdf r) (pllMfd r) / pllMfd r) 5 < 16 ∧
    x = (max (pllTotal p req (pllPdf r) (pllMfd r) / pllMfd r) 5,
      ((pllTotal p req (pllPdf r) (pllMfd r) % pllMfd r : Nat) : Int)) := by
  unfold pllFields at h
  split at h
  · cases h
  · split at h
    · cases h
    · split at h
      case isTrue => cases h
      case isFalse hd _ hmax =>
        have hpos : 0 < pllMfd r := Nat.pos_of_ne_zero hd
        have hwidth : pllMfd r < 1024 := (r.extractLsb' 16 10).isLt
        have hrem := Nat.mod_lt (pllTotal p req (pllPdf r) (pllMfd r)) hpos
        have hclamp : clamp (pllTotal p req (pllPdf r) (pllMfd r) % pllMfd r : Nat) mfnMin mfnMax =
            (pllTotal p req (pllPdf r) (pllMfd r) % pllMfd r : Nat) := by
          simp only [clamp, mfnMin, mfnMax]
          omega
        rw [hclamp] at h
        exact ⟨hpos, Nat.lt_succ_of_le (not_lt.1 hmax), (Except.ok.inj h).symm⟩

/-- What PLL scaling computes: the fields, the frequency with the remainder as MFN, and the word written, which has
the old MFN instead where that frequency is above the request and the current one covers it (41 R135 to R137). -/
theorem pllScale_ok {p : Params} {turbo : Bool} {req cur new : Nat} {r w : Word}
    (h : pllScale p turbo req r = .ok (cur, w, new)) :
    ∃ m n new0, pllHz p turbo r = .ok cur ∧ pllFields p req (pllPdf r) (pllMfd r) = .ok (m, n) ∧
      pllHz p turbo (pllWith r m n) = .ok new0 ∧ pllHz p turbo w = .ok new ∧
      w = pllWith r m (if req < new0 ∧ req ≤ cur then pllMfn r else n) := by
  unfold pllScale at h
  split at h
  · cases h
  · cases h
  case h_3 cur' m n hcur hfields =>
    split at h
    · cases h
    case h_2 new0 hnew0 =>
      split at h
      case isTrue hold =>
        split at h
        · cases h
        case h_2 new' hnew' =>
          cases h
          exact ⟨m, n, new0, hcur, hfields, hnew0, hnew', by rw [if_pos hold]⟩
      case isFalse hold =>
        cases h
        exact ⟨m, n, new, hcur, hfields, hnew0, hnew0, by rw [if_neg hold]⟩

/-- With the reference clock model the floor quotient and its remainder never give more than the request: together
they are `total`, itself a floor of the request (41 R136). -/
theorem pllFormula_le_req {refHz req f : Nat} {r w : Word}
    (hd : 1 ≤ pllMfd r) (hpdf : pllPdf w = pllPdf r) (hmfd : pllMfd w = pllMfd r)
    (hq : 5 ≤ req * (pllPdf r + 1) * pllMfd r / (2 * refHz) / pllMfd r)
    (hmfi : pllMfi w = req * (pllPdf r + 1) * pllMfd r / (2 * refHz) / pllMfd r)
    (hmfn : pllMfn w = (req * (pllPdf r + 1) * pllMfd r / (2 * refHz) % pllMfd r : Nat))
    (hf : pllFormula refHz w = .ok f) : f ≤ req := by
  have hnum : ((pllMfi w * pllMfd w : Nat) : Int) + pllMfn w =
      ((req * (pllPdf r + 1) * pllMfd r / (2 * refHz) : Nat) : Int) := by
    rw [hmfi, hmfn, hmfd, ← Nat.cast_add, Nat.div_add_mod']
  rw [pllFormula_of_nonneg (hmfd ▸ hd) (hmfi ▸ hq) (hnum ▸ Int.natCast_nonneg _), hnum, Int.toNat_natCast] at hf
  obtain rfl := Except.ok.inj hf
  rw [hpdf, hmfd]
  refine Nat.div_le_of_le_mul ?_
  calc 2 * refHz * (req * (pllPdf r + 1) * pllMfd r / (2 * refHz)) ≤ req * (pllPdf r + 1) * pllMfd r :=
        Nat.mul_div_le _ _
    _ = pllMfd r * (pllPdf r + 1) * req := by ring

/-- Settles O19: the word is `pllWith` of the fields of `pll_fields`, and with the reference model and an unclamped MFI
the old MFN is never taken. -/
theorem pllScalingKeepsMfdAndPdfAndFloors : Obligations.PllScalingKeepsMfdAndPdfAndFloors := by
  intro p turbo req r w cur new h total m rem
  obtain ⟨m', n, new0, hcur, hfields, hnew0, hnew, hw⟩ := pllScale_ok h
  obtain ⟨hd, hm, hmn⟩ := pllFields_ok hfields
  obtain ⟨rfl, rfl⟩ : m' = m ∧ n = (rem : Int) := Prod.mk.inj hmn
  replace hm : m < 16 := hm
  have hrem : rem < 1024 := (Nat.mod_lt _ hd).trans (r.extractLsb' 16 10).isLt
  have hmfnRem : pllMfn (pllWith r m rem) = rem := pllMfn_pllWith hm (by omega) (by omega)
  have hmfnOld : pllMfn (pllWith r m (pllMfn r)) = pllMfn r := pllMfn_pllWith_self hm
  obtain ⟨hpdf, hmfd, hmfi, -, hmask⟩ :=
    pllWith_fields (r := r) (n := if req < new0 ∧ req ≤ cur then pllMfn r else rem) hm
  rw [← hw] at hpdf hmfd hmfi hmask
  refine ⟨hcur, hnew, hpdf, hmfd, hmfi, hmask, ⟨new0, hnew0, ?_⟩, fun href hq => ?_⟩
  · rw [hw]
    split
    · exact hmfnOld
    · exact hmfnRem
  · have hmq : m = total / pllMfd r := max_eq_left hq
    obtain ⟨hpdf0, hmfd0, hmfi0, -, -⟩ := pllWith_fields (r := r) (n := rem) hm
    have hle0 : new0 ≤ req :=
      pllFormula_le_req hd hpdf0 hmfd0 hq (hmfi0.trans hmq) hmfnRem ((pllHz_reference href ..).symm.trans hnew0)
    rw [if_neg (by omega)] at hw
    rw [hw, hnew0] at hnew
    exact (Except.ok.inj hnew) ▸ hle0

end Sys2Proof.Machine
end

section
/-! SUPPORT. Runs of a command that SEQ runs alone (41 R120, 00_scope R14): the step that takes dvfs_lock, each kind of
line of a command that holds it, and the fields of DIV that the masked writes of these commands move (10_state R23). -/

namespace Sys2Proof.Machine

/-! ### Lines of a command that holds dvfs_lock -/

/-- `s` while SEQ runs a command that has taken dvfs_lock and has the lines `todo` still to run (41 R120). -/
def locked (s : State) (w : Word) (a : Args) (todo : List SeqLine) : State :=
  { s with dvfsLock := .held .seq, irqOff := true, seq := .run { word := w, args := a, todo := todo } }

/-- A register write does not look at the lock or at SEQ's position. -/
theorem writeCsr_locked (s : State) (w : Word) (a : Args) (todo : List SeqLine) (r : Csr) (v : Word) :
    (locked s w a todo).writeCsr r v = locked (s.writeCsr r v) w a todo := by
  cases r with
  | div =>
    simp only [State.writeCsr, State.writeDiv]
    rw [apply_ite (locked · w a todo)]
    rfl
  | _ => rfl

theorem modifyCsr_locked (s : State) (w : Word) (a : Args) (todo : List SeqLine) (r : Csr) (m v : Word) :
    (locked s w a todo).modifyCsr r m v = locked (s.modifyCsr r m v) w a todo := by
  have hread : (locked s w a todo).readCsr r = s.readCsr r := by cases r <;> rfl
  rw [State.modifyCsr, hread, writeCsr_locked]
  rfl

section Locked
variable {s : State} {w : Word} {a : Args} {i : Instr} {rest : List SeqLine}

/-- The first step of a command that takes dvfs_lock (41 R120). -/
theorem exec_acquire (hs : s.seq = .run { word := w, args := a, todo := [.start] }) (hu : Unlocked s)
    (hp : planOf i s a = .acquireDvfs :: rest) : exec i s = .next (locked s w a rest) :=
  exec_start_done hs hp (SeqLine.run_done_iff.2 (.acquire hu.2.1))

/-- The first step of a command that fails a check before it takes the lock (41 R123). -/
theorem exec_refuse {e : Err} (hs : s.seq = .run { word := w, args := a, todo := [.start] }) (hu : Unlocked s)
    (hp : planOf i s a = [.raise e]) : exec i s = .next (raised s e.result) := by
  rw [exec_start_ended hs hp (SeqLine.run_over_iff.2 .raised), raiseErr_of_free hu.2.1]

/-- A read goes on with the lines that its value gives. -/
theorem exec_locked_read {r : Csr} {k : Cont} {more : List SeqLine}
    (hk : k.resume s.params a (s.readCsr r) = more) :
    exec i (locked s w a [.read r k]) = .next (locked s w a more) := by
  have hread : (locked s w a [.read r k]).readCsr r = s.readCsr r := by cases r <;> rfl
  rw [exec_line_done (s := locked s w a [.read r k]) rfl (by simp) (SeqLine.run_done_iff.2 .read), hread, ← hk,
    List.append_nil]
  rfl

theorem exec_locked_modify (hl : s.regLock = .free) (r : Csr) (m v : Word) :
    exec i (locked s w a (.op (.modify r m v) :: rest)) = .next (locked (s.modifyCsr r m v) w a rest) := by
  rw [exec_line_done (s := locked s w a (.op (.modify r m v) :: rest)) rfl (by simp)
    (SeqLine.run_done_iff.2 (.op (.modify hl))), modifyCsr_locked]
  rfl

theorem exec_locked_write (r : Csr) (v : Word) :
    exec i (locked s w a (.op (.write r v) :: rest)) = .next (locked (s.writeCsr r v) w a rest) := by
  rw [exec_line_done (s := locked s w a (.op (.write r v) :: rest)) rfl (by simp)
    (SeqLine.run_done_iff.2 (.op .write)), writeCsr_locked]
  rfl

/-- A poll whose bit reads 1 goes on (41 R143, R144). -/
theorem exec_locked_poll {b : PollBit} (hl : s.regLock = .free) (hb : b.sample s.pllsr = true) :
    exec i (locked s w a (.poll b :: rest)) = .next (locked s w a rest) :=
  exec_line_done (s := locked s w a (.poll b :: rest)) rfl (by simp) (SeqLine.run_done_iff.2 (.poll hl hb))

/-- A poll whose bit reads 0 waits (41 R143, R144). -/
theorem exec_locked_poll_wait {b : PollBit} (hb : b.sample s.pllsr = false) :
    exec i (locked s w a (.poll b :: rest)) = .next (locked s w a (.poll b :: rest)) := by
  refine exec_line_wait (s := locked s w a (.poll b :: rest)) rfl (by simp) (if_neg fun h => ?_)
  exact absurd (h.2.symm.trans hb) (by decide)

/-- A return releases the lock: with none held before the command, what is left is its end (60 R320). -/
theorem exec_locked_ret (hu : Unlocked s) (v0 v1 : Word) :
    exec i (locked s w a [.ret v0 v1]) = .next (ended s v0 v1) := by
  obtain ⟨-, hfree, -, hirq⟩ := hu
  rw [exec_line_ended (s := locked s w a [.ret v0 v1]) rfl (by simp) (SeqLine.run_over_iff.2 .ret),
    finish_of_held rfl]
  simp only [ended, locked, ← hfree, ← hirq]

theorem exec_locked_raise (hu : Unlocked s) (e : Err) :
    exec i (locked s w a [.raise e]) = .next (raised s e.result) := by
  obtain ⟨-, hfree, -, hirq⟩ := hu
  rw [exec_line_ended (s := locked s w a [.raise e]) rfl (by simp) (SeqLine.run_over_iff.2 .raised),
    raiseErr_of_held rfl]
  simp only [raised, locked, ← hfree, ← hirq]

end Locked

theorem readCsr_pllCsr (s : State) (t : Bool) : s.readCsr (pllCsr t) = if t then s.tpll else s.mpll := by
  cases t <;> rfl

/-- The register of the PLL that drives the core (41 R121). -/
theorem readCsr_activePll (s : State) :
    s.readCsr (activePll s.pllsr) = if s.pllsr.getLsbD 3 then s.tpll else s.mpll := readCsr_pllCsr s _

/-! ### Masked writes of DIV -/

section Div
variable {s : State}

theorem and_eq_self_of_reserved {w m : Word} (h : w &&& ~~~m = 0) : w &&& m = w := by
  calc w &&& m = (w &&& m) ||| (w &&& ~~~m) := by rw [h]; simp
    _ = w := by rw [← BitVec.and_or_distrib_left, BitVec.or_not_self, BitVec.and_allOnes]

/-- A write to DIV that keeps PLL_SEL and the bits that exist starts no switch (10_state R23). -/
theorem writeDiv_of_keeps {v : Word} (hv : v &&& ~~~(divMask s.params) = 0) (hsel : divPllSel v = divPllSel s.div) :
    s.writeDiv v = { s with div := v } := by
  have hmask : v &&& divMask s.params = v := and_eq_self_of_reserved hv
  rw [State.writeDiv, hmask, if_neg fun h => h.1 hsel]

/-- `s` with `v` in DIV. -/
def withDiv (s : State) (v : Word) : State := { s with div := v }

@[simp] theorem withDiv_div (s : State) (v : Word) : (withDiv s v).div = v := rfl

theorem unlocked_withDiv (hu : Unlocked s) (v : Word) : Unlocked (withDiv s v) := hu

theorem lowMask_reserved (p : Params) {m : Word} (hm : m &&& ~~~0xFF = 0) : m &&& ~~~(divMask p) = 0 := by
  unfold divMask
  split
  · calc m &&& ~~~0x1FF = m &&& ~~~0xFF &&& ~~~0x1FF := by rw [BitVec.and_assoc]; rfl
      _ = 0 := by rw [hm]; rfl
  · exact hm

/-- A masked write of the low fields of DIV keeps to the bits that exist. -/
theorem mergeDiv_reserved {m : Word} (v : Word) (hd : s.div &&& ~~~(divMask s.params) = 0) (hm : m &&& ~~~0xFF = 0) :
    merge s.div m v &&& ~~~(divMask s.params) = 0 := by
  refine or_reserved (and_reserved hd _) ?_
  rw [BitVec.and_assoc, lowMask_reserved s.params hm]
  exact BitVec.and_zero

/-- A masked write of the low fields of DIV: it starts no switch (10_state R23). -/
theorem modifyDiv_eq {m v : Word} (hd : s.div &&& ~~~(divMask s.params) = 0) (hm : m &&& ~~~0xFF = 0) :
    s.modifyCsr .div m v = withDiv s (merge s.div m v) := by
  have hm8 : m[8] = false := by simpa using congrArg (·.getLsbD 8) hm
  refine writeDiv_of_keeps (mergeDiv_reserved v hd hm) ?_
  simp [divPllSel, bit, merge, hm8, State.readCsr]

/-- A masked write of the low fields of DIV by a command that holds dvfs_lock. -/
theorem exec_locked_modifyDiv {w m v : Word} {a : Args} {i : Instr} {rest : List SeqLine} (hu : Unlocked s)
    (hd : s.div &&& ~~~(divMask s.params) = 0) (hm : m &&& ~~~0xFF = 0) :
    exec i (locked s w a (.op (.modify .div m v) :: rest)) =
      .next (locked (withDiv s (merge s.div m v)) w a rest) := by
  rw [exec_locked_modify hu.1, modifyDiv_eq hd hm]

/-- A masked write acts on the bits kept and on the bits written apart. -/
theorem merge_kept_or (d x c m v : Word) :
    merge ((d &&& x) ||| c) m v = (d &&& (x &&& ~~~m)) ||| ((c &&& ~~~m) ||| (v &&& m)) := by
  rw [merge, BitVec.and_or_distrib_right, BitVec.and_assoc, BitVec.or_assoc]

/-- DIV has nine bits (10_state R23). -/
theorem div_and_eq_self (hd : s.div &&& ~~~(divMask s.params) = 0) : s.div &&& 0x1FF = s.div := by
  have hmask : divMask s.params &&& 0x1FF = divMask s.params := by unfold divMask; split <;> rfl
  have hself : s.div &&& divMask s.params = s.div := and_eq_self_of_reserved hd
  calc s.div &&& 0x1FF = s.div &&& divMask s.params &&& 0x1FF := by rw [hself]
    _ = s.div := by rw [BitVec.and_assoc, hmask, hself]

theorem div_and_eq (hd : s.div &&& ~~~(divMask s.params) = 0) (x : Word) : s.div &&& x = s.div &&& (0x1FF &&& x) := by
  rw [← BitVec.and_assoc, div_and_eq_self hd]

/-- The BRMM field of DIV after a write of it (41 R130). -/
theorem merge_brmm (d : Word) {k : Nat} (hk : k < 8) :
    merge d 0x7 (BitVec.ofNat 32 k) = (d &&& ~~~0x7) ||| BitVec.ofNat 32 k := by
  have hfit : ∀ k < 8, BitVec.ofNat 32 k &&& 0x7 = BitVec.ofNat 32 k := by decide
  rw [merge, hfit k hk]

/-- BRMM 0 (41 R139). -/
theorem merge_brmm_zero (d : Word) : merge d 0x7 0 = d &&& ~~~0x7 := by simp [merge]

/-- Clearing BRMM where it is 0 changes nothing. -/
theorem and_not_brmm_of_zero {d : Word} (hd : divBrmm d = 0) : d &&& ~~~0x7 = d := by
  have hfield : d.extractLsb' 0 3 = 0 := BitVec.eq_of_toNat_eq hd
  have h0 : d[0] = false := by simpa using congrArg (·.getLsbD 0) hfield
  have h1 : d[1] = false := by simpa using congrArg (·.getLsbD 1) hfield
  have h2 : d[2] = false := by simpa using congrArg (·.getLsbD 2) hfield
  ext i hi
  interval_cases i <;> simp [h0, h1, h2]

/-- A write of the dividers leaves BRMM (10_state R23). -/
theorem divBrmm_merge_dividers (d v : Word) : divBrmm (merge d 0xF8 v) = divBrmm d := by
  refine congrArg BitVec.toNat ?_
  rw [merge]
  ext i hi
  interval_cases i <;> simp

section Dividers
variable {ap ip : Nat}

/-- AHB_PDF and IPG_PDF in a word that keeps the bits `x` of DIV (41 R131). -/
theorem merge_dividers (d x : Word) (hap : ap < 8) (hip : ip < 4) :
    merge (d &&& x) 0xF8 (dividerValue ap ip) = (d &&& (x &&& ~~~0xF8)) ||| BitVec.ofNat 32 (64 * ip + 8 * ap) := by
  have hfit : ∀ a < 8, ∀ i < 4, dividerValue a i &&& 0xF8 = BitVec.ofNat 32 (64 * i + 8 * a) := by decide
  rw [merge, BitVec.and_assoc, hfit ap hap ip hip]

/-- DIV after a write of AHB_PDF and IPG_PDF (41 R134). -/
theorem mergeDiv_dividers (hd : s.div &&& ~~~(divMask s.params) = 0) (hap : ap < 8) (hip : ip < 4) :
    merge s.div 0xF8 (dividerValue ap ip) = (s.div &&& 0x107) ||| BitVec.ofNat 32 (64 * ip + 8 * ap) := by
  have h := merge_dividers s.div 0x1FF hap hip
  rwa [div_and_eq_self hd] at h

/-- BRMM beside AHB_PDF and IPG_PDF (41 R130). -/
theorem merge_brmm_dividers (d x : Word) {k : Nat} (hap : ap < 8) (hip : ip < 4) (hk : k < 8) :
    merge ((d &&& x) ||| BitVec.ofNat 32 (64 * ip + 8 * ap)) 0x7 (BitVec.ofNat 32 k) =
      (d &&& (x &&& ~~~0x7)) ||| BitVec.ofNat 32 (64 * ip + 8 * ap + k) := by
  have hfit : ∀ a < 8, ∀ i < 4, ∀ k < 8,
      (BitVec.ofNat 32 (64 * i + 8 * a) &&& ~~~0x7) ||| (BitVec.ofNat 32 k &&& 0x7) =
        BitVec.ofNat 32 (64 * i + 8 * a + k) := by decide
  rw [merge_kept_or, hfit ap hap ip hip k hk]

/-- The AHB divider that a write of the dividers gives (41 R134). -/
theorem divAhbPdf_dividers (d : Word) (hap : ap < 8) (hip : ip < 4) :
    divAhbPdf ((d &&& 0x107) ||| BitVec.ofNat 32 (64 * ip + 8 * ap)) = ap := by
  have hfield : ∀ a < 8, ∀ i < 4, ((BitVec.ofNat 32 (64 * i + 8 * a) : Word).extractLsb' 3 3).toNat = a := by decide
  have hkept : (0x107 : Word).extractLsb' 3 3 = 0#3 := rfl
  rw [divAhbPdf, field, BitVec.extractLsb'_or, BitVec.extractLsb'_and, hkept, BitVec.and_zero, BitVec.zero_or]
  exact hfield ap hap ip hip

end Dividers

end Div

end Sys2Proof.Machine
end

section
/-! SUPPORT. Frequency requests by integer and by PLL scaling (41 R123 to R139): the checks, the runs up to the last
read, and what each way on writes. -/

namespace Sys2Proof.Machine

/-! ### The checks of a request -/

section Validate
variable {p : Params} {a : Args} {cap : Bool}

theorem validate_noCap : validate p a false = some .apiNotSupported := rfl

theorem validate_badBus (h : a.a1.toNat ≠ p.busMaxHz ∨ a.a2.toNat ≠ p.perMaxHz) :
    validate p a true = some .busFrequencyInvalid := if_pos h

theorem validate_badArm (h1 : a.a1.toNat = p.busMaxHz) (h2 : a.a2.toNat = p.perMaxHz)
    (h : a.a0.toNat < p.armMinHz ∨ p.armMaxHz < a.a0.toNat) : validate p a true = some .invalidArmFrequency :=
  (if_neg (not_or.2 ⟨not_not.2 h1, not_not.2 h2⟩)).trans (if_pos h)

theorem validate_ok {s : State} (h : ValidRequest s a) : validate s.params a true = none := by
  obtain ⟨h1, h2, hmin, hmax⟩ := h
  exact (if_neg (not_or.2 ⟨not_not.2 h1, not_not.2 h2⟩)).trans (if_neg (not_or.2 ⟨not_lt.2 hmin, not_lt.2 hmax⟩))

end Validate

/-- A frequency request of a variant with capability `cap` begins with its checks, then takes the lock and reads PLLSR
(41 R124, R125, R135). -/
structure BeginsRequest (i : Instr) (cap : Bool) (k : Cont) (s : State) (a : Args) : Prop where
  refused : ∀ e, validate s.params a cap = some e → planOf i s a = [.raise e]
  accepted : validate s.params a cap = none → planOf i s a = [.acquireDvfs, .read .pllsr k]

section Begins
variable {i : Instr} {s : State}

theorem intscaleLines_begins (a : Args) (hp : planOf i s a = intscaleLines s.params a) :
    BeginsRequest i s.params.capIntscale .intPllsr s a where
  refused e he := by rw [hp, intscaleLines, he]
  accepted he := by rw [hp, intscaleLines, he]

theorem pllscaleLines_begins (a : Args) (hp : planOf i s a = pllscaleLines s.params a) :
    BeginsRequest i s.params.capPllscale .plsPllsr s a where
  refused e he := by rw [hp, pllscaleLines, he]
  accepted he := by rw [hp, pllscaleLines, he]

/-- Integer scaling, also as the strategy of DVFS_REQ_FREQ (41 R124). -/
theorem intscale_begins (a : Args) (hi : i = .dvfsIntscale ∨ i = .dvfsReqFreq) (hc : s.params.capIntscale = true) :
    BeginsRequest i true .intPllsr s a := by
  rw [← hc]
  obtain rfl | rfl := hi
  · exact intscaleLines_begins a rfl
  · exact intscaleLines_begins a (if_pos hc)

/-- PLL scaling, also as the strategy of DVFS_REQ_FREQ (41 R124). -/
theorem pllscale_begins (a : Args)
    (hi : i = .dvfsPllscale ∨ (i = .dvfsReqFreq ∧ s.params.capIntscale = false)) (hc : s.params.capPllscale = true) :
    BeginsRequest i true .plsPllsr s a := by
  rw [← hc]
  obtain rfl | ⟨rfl, hno⟩ := hi
  · exact pllscaleLines_begins a rfl
  · exact pllscaleLines_begins a ((if_neg (by rw [hno]; decide)).trans (if_pos hc))

/-- Each of the three requests begins with its checks (41 R123, R124). -/
theorem request_begins (a : Args) {cap : Bool}
    (h : (i = .dvfsIntscale ∧ cap = s.params.capIntscale) ∨ (i = .dvfsPllscale ∧ cap = s.params.capPllscale) ∨
      (i = .dvfsReqFreq ∧ cap = (s.params.capIntscale || s.params.capPllscale))) :
    ∃ k, BeginsRequest i cap k s a := by
  obtain ⟨rfl, rfl⟩ | ⟨rfl, rfl⟩ | ⟨rfl, rfl⟩ := h
  · exact ⟨_, intscaleLines_begins a rfl⟩
  · exact ⟨_, pllscaleLines_begins a rfl⟩
  · cases hint : s.params.capIntscale with
    | true => exact ⟨_, intscale_begins a (.inr rfl) hint⟩
    | false =>
      cases hpll : s.params.capPllscale with
      | true => exact ⟨_, pllscale_begins a (.inr ⟨rfl, hint⟩) hpll⟩
      | false =>
        have hplan : planOf .dvfsReqFreq s a = [.raise .apiNotSupported] := by simp [planOf, reqFreqPlan, hint, hpll]
        exact ⟨.intPllsr, fun e he => by obtain rfl := Option.some.inj he; exact hplan, fun he => nomatch he⟩

end Begins

/-- Settles O20: the first step refuses with the error of `validate`, or takes the lock. -/
theorem requestsAreValidatedInOrder : Obligations.RequestsAreValidatedInOrder := by
  intro s w a i cap hs hu hi
  obtain ⟨k, hrefused, haccepted⟩ := request_begins a hi
  refine ⟨?_, ?_, ?_, ?_⟩
  · rintro rfl
    exact exec_refuse hs hu (hrefused _ validate_noCap)
  · rintro rfl hbus
    exact exec_refuse hs hu (hrefused _ (validate_badBus hbus))
  · rintro rfl h1 h2 harm
    exact exec_refuse hs hu (hrefused _ (validate_badArm h1 h2 harm))
  · rintro rfl hv
    exact ⟨_, exec_acquire hs hu (haccepted (validate_ok hv))⟩

/-! ### The dividers -/

section Adjust
variable {arm ahb ip : Nat} {next : List SeqLine}

theorem ahbPdf_lt {x y n : Nat} (h : ahbPdf x y = .ok n) : n < 8 := by
  unfold ahbPdf ahbPdfMax at h
  split at h <;> cases h
  omega

theorem ipgPdf_lt {x y n : Nat} (h : ipgPdf x y = .ok n) : n < 4 := by
  unfold ipgPdf ipgPdfMax at h
  split at h <;> cases h
  omega

theorem mhz_ne_zero {hz : Nat} (h : 1000000 ≤ hz) : mhz hz ≠ 0 := by
  unfold mhz
  omega

/-- The dividers in range: the write of both (41 R131). -/
theorem adjustLines_ok {a i : Nat} (hahb : 1000000 ≤ ahb) (hip : 1000000 ≤ ip)
    (ha : ahbPdf (mhz arm) (mhz ahb) = .ok a) (hi : ipgPdf (mhz arm / (a + 1)) (mhz ip) = .ok i) :
    adjustLines arm ahb ip next = .op (.modify .div 0xF8 (dividerValue a i)) :: next := by
  rw [adjustLines, dividers, if_neg (not_or.2 ⟨mhz_ne_zero hahb, mhz_ne_zero hip⟩)]
  simp only [ha, hi]

/-- A divider above its maximum (41 R132, R133). -/
def DividerError (arm ahb ip : Nat) (e : Err) : Prop :=
  ahbPdf (mhz arm) (mhz ahb) = .error e ∨
    ∃ a, ahbPdf (mhz arm) (mhz ahb) = .ok a ∧ ipgPdf (mhz arm / (a + 1)) (mhz ip) = .error e

/-- A divider above its maximum: the raise in the write's place (41 R131). -/
theorem adjustLines_error {e : Err} (hahb : 1000000 ≤ ahb) (hip : 1000000 ≤ ip) (he : DividerError arm ahb ip e) :
    adjustLines arm ahb ip next = [.raise e] := by
  rw [adjustLines, dividers, if_neg (not_or.2 ⟨mhz_ne_zero hahb, mhz_ne_zero hip⟩)]
  obtain ha | ⟨a, ha, hi⟩ := he
  · simp only [ha]
  · simp only [ha, hi]

end Adjust

/-! ### Integer scaling -/

section Intscale
variable {s : State} {w : Word} {a : Args} {i : Instr} {pll : Nat}

/-- Integer scaling up to the check of R126: the lock, PLLSR and the active PLL's register (41 R125). -/
theorem intscale_reads_pll (hs : s.seq = .run { word := w, args := a, todo := [.start] }) (hu : Unlocked s)
    (hi : i = .dvfsIntscale ∨ i = .dvfsReqFreq) (hc : s.params.capIntscale = true) (hv : ValidRequest s a)
    (hpll : pllHz s.params (s.pllsr.getLsbD 3) (if s.pllsr.getLsbD 3 then s.tpll else s.mpll) = .ok pll) :
    execTimes i 3 s = .next (locked s w a
      (if pll < a.a0.toNat then [.raise .pllLessThanArmRequested] else [.read .div (.intDiv pll)])) := by
  have hlines : (Cont.intPll (pllsrCurPll s.pllsr)).resume s.params a (s.readCsr (activePll s.pllsr)) =
      if pll < a.a0.toNat then [.raise .pllLessThanArmRequested] else [.read .div (.intDiv pll)] := by
    rw [Cont.resume, intscalePllLines, readCsr_activePll, pllsrCurPll, bit, hpll]
    rfl
  rw [execTimes_succ (exec_acquire hs hu ((intscale_begins a hi hc).accepted (validate_ok hv))),
    execTimes_succ (exec_locked_read (more := [.read (activePll s.pllsr) (.intPll (pllsrCurPll s.pllsr))]) rfl),
    execTimes_succ (exec_locked_read hlines), execTimes_zero]

/-- Integer scaling up to the AHB test (41 R125). -/
theorem intscale_reads_div (hs : s.seq = .run { word := w, args := a, todo := [.start] }) (hu : Unlocked s)
    (hi : i = .dvfsIntscale ∨ i = .dvfsReqFreq) (hc : s.params.capIntscale = true) (hv : ValidRequest s a)
    (hpll : pllHz s.params (s.pllsr.getLsbD 3) (if s.pllsr.getLsbD 3 then s.tpll else s.mpll) = .ok pll)
    (hle : a.a0.toNat ≤ pll) :
    execTimes i 4 s = .next (locked s w a (intscaleDivLines a pll s.div)) := by
  have hreads := intscale_reads_pll hs hu hi hc hv hpll
  rw [if_neg (not_lt.2 hle)] at hreads
  rw [execTimes_add hreads 1, execTimes_succ (exec_locked_read rfl), execTimes_zero]
  rfl

theorem ahbMatches_iff {bus : Nat} {d : Word} :
    ahbMatches pll bus d = true ↔ pll / 1000000 / (divAhbPdf d + 1) = bus / 1000000 := beq_iff_eq

/-- The end of integer scaling: the BRMM write and the return (41 R130). -/
theorem brmmLines_run (hu : Unlocked s) (hd : s.div &&& ~~~(divMask s.params) = 0) (d : Word) :
    execTimes i 2 (locked s w a (brmmLines a pll d)) =
      .next (ended (withDiv s (merge s.div 0x7 (BitVec.ofNat 32 (calcBrmm a.a0.toNat pll (ahbHz pll d))))) 0 0) := by
  rw [brmmLines, execTimes_succ (exec_locked_modifyDiv hu hd rfl),
    execTimes_succ (exec_locked_ret (unlocked_withDiv hu _) 0 0), execTimes_zero]
  rfl

end Intscale

/-- Settles O21: the reads, then the BRMM write and the return. -/
theorem intscaleWithMatchingAhbWritesBrmmOnly : Obligations.IntscaleWithMatchingAhbWritesBrmmOnly := by
  intro s a i pll ⟨w, hs⟩ hu hregs hi hc hv hpll hle hmatch
  have hlines : intscaleDivLines a pll s.div = brmmLines a pll s.div := if_pos (ahbMatches_iff.2 hmatch)
  have hbrmm : calcBrmm a.a0.toNat pll (ahbHz pll s.div) < 8 := (calcBrmm_le ..).trans_lt (by decide)
  rw [execTimes_add (intscale_reads_div hs hu hi hc hv hpll hle) 2, hlines, brmmLines_run hu hregs.1,
    merge_brmm _ hbrmm]
  rfl

/-- What integer scaling leaves on its way through the dividers (41 R134). -/
theorem intscale_adjusted {s : State} {w : Word} {a : Args} {i : Instr} {pll ap ip : Nat} (hu : Unlocked s)
    (hdiv : s.div &&& ~~~(divMask s.params) = 0) (hap : ap < 8) (hip : ip < 4) :
    execTimes i 3 (locked (withDiv s (merge s.div 0xF8 (dividerValue ap ip))) w a [.read .div (.intDivAgain pll)]) =
      .next (ended (withDiv s ((s.div &&& 0x100) |||
        BitVec.ofNat 32 (64 * ip + 8 * ap + calcBrmm a.a0.toNat pll (pll / (ap + 1))))) 0 0) := by
  have hmerge := mergeDiv_dividers hdiv hap hip
  have hahb : ahbHz pll (merge s.div 0xF8 (dividerValue ap ip)) = pll / (ap + 1) := by
    rw [ahbHz, hmerge, divAhbPdf_dividers s.div hap hip]
  have hbrmm : calcBrmm a.a0.toNat pll (pll / (ap + 1)) < 8 := (calcBrmm_le ..).trans_lt (by decide)
  have hrun := brmmLines_run (w := w) (a := a) (i := i) (pll := pll)
    (unlocked_withDiv hu (merge s.div 0xF8 (dividerValue ap ip)))
    (mergeDiv_reserved (m := 0xF8) (dividerValue ap ip) hdiv rfl) (merge s.div 0xF8 (dividerValue ap ip))
  rw [execTimes_succ (exec_locked_read rfl)]
  refine hrun.trans ?_
  rw [hahb, withDiv_div, hmerge, merge_brmm_dividers s.div 0x107 hap hip hbrmm]
  rfl

/-- Settles O22: the divider write and the second read of DIV, then BRMM for the AHB clock of that read. -/
theorem intscaleAdjustsTheDividersFirst : Obligations.IntscaleAdjustsTheDividersFirst := by
  intro s a i pll ap ip ⟨w, hs⟩ hu hregs hi hc hv hpll hle hmatch hbus hper hap hip
  have hdiv := hregs.1
  have hlines : intscaleDivLines a pll s.div =
      [.op (.modify .div 0xF8 (dividerValue ap ip)), .read .div (.intDivAgain pll)] :=
    (if_neg fun h => hmatch (ahbMatches_iff.1 h)).trans (adjustLines_ok hbus hper hap hip)
  have hfive : execTimes i 5 s =
      .next (locked (withDiv s (merge s.div 0xF8 (dividerValue ap ip))) w a [.read .div (.intDivAgain pll)]) := by
    rw [execTimes_add (intscale_reads_div hs hu hi hc hv hpll hle) 1, hlines,
      execTimes_succ (exec_locked_modifyDiv hu hdiv rfl), execTimes_zero]
  constructor
  · rw [hfive, mergeDiv_dividers hdiv (ahbPdf_lt hap) (ipgPdf_lt hip), hs]
    rfl
  · rw [execTimes_add hfive 3, intscale_adjusted hu hdiv (ahbPdf_lt hap) (ipgPdf_lt hip)]
    rfl

/-- Settles O23: the raise comes in the place of the first write. -/
theorem intscaleErrorsWriteNoRegister : Obligations.IntscaleErrorsWriteNoRegister := by
  intro s a i pll ⟨w, hs⟩ hu hi hc hv hpll
  refine ⟨fun hlt => ?_, fun hle hmatch hbus hper => ?_⟩
  · have hreads := intscale_reads_pll hs hu hi hc hv hpll
    rw [if_pos hlt] at hreads
    rw [execTimes_add hreads 1, execTimes_succ (exec_locked_raise hu _), execTimes_zero]
    rfl
  · have hraise : ∀ e, DividerError pll (u32 a.a1) (u32 a.a2) e → execTimes i 5 s = .next (raised s e.result) := by
      intro e he
      have hlines : intscaleDivLines a pll s.div = [.raise e] :=
        (if_neg fun h => hmatch (ahbMatches_iff.1 h)).trans (adjustLines_error hbus hper he)
      rw [execTimes_add (intscale_reads_div hs hu hi hc hv hpll hle) 1, hlines,
        execTimes_succ (exec_locked_raise hu _), execTimes_zero]
    exact ⟨fun h => hraise _ (.inl h), fun ap ha hi => hraise _ (.inr ⟨ap, ha, hi⟩)⟩

/-! ### PLL scaling -/

/-- `s` with `v` in the register of a PLL. -/
def withPll (s : State) (turbo : Bool) (v : Word) : State :=
  { s with mpll := if turbo then s.mpll else v, tpll := if turbo then v else s.tpll }

section Pllscale
variable {s : State} {w : Word} {a : Args} {i : Instr} {v : Word} {cur new : Nat}

/-- A write of a PLL register keeps the bits that exist: without relock there is no TPLL (10_state R24). -/
theorem writePll_eq {turbo : Bool} (hv : v &&& ~~~pllMask = 0) (ht : turbo = true → s.params.capRelock = true) :
    s.writeCsr (pllCsr turbo) v = withPll s turbo v := by
  have hself := and_eq_self_of_reserved hv
  cases turbo with
  | false =>
    change { s with mpll := v &&& pllMask } = _
    rw [hself]
    rfl
  | true =>
    have hmask : tpllMask s.params = pllMask := if_pos (ht rfl)
    change { s with tpll := v &&& tpllMask s.params } = _
    rw [hmask, hself]
    rfl

/-- Where there is no TPLL its register is 0, and PLL scaling from it faults (10_state R24). -/
theorem capRelock_of_pllScale {turbo : Bool} {req : Nat} {x : Nat × Word × Nat}
    (htpll : s.tpll &&& ~~~(tpllMask s.params) = 0)
    (h : pllScale s.params turbo req (if turbo then s.tpll else s.mpll) = .ok x) :
    turbo = true → s.params.capRelock = true := by
  rintro rfl
  by_contra hno
  have hmask : tpllMask s.params = 0 := if_neg hno
  have hzero : s.tpll = 0 := by
    have hself := and_eq_self_of_reserved htpll
    rw [hmask] at hself
    exact hself.symm.trans BitVec.and_zero
  obtain ⟨m, n, new0, hcur, -⟩ := pllScale_ok (cur := x.1) (w := x.2.1) (new := x.2.2) h
  rw [if_pos rfl, hzero, pllHz_error_iff.2 ⟨rfl, rfl⟩] at hcur
  cases hcur

/-- The word PLL scaling writes has the bits of R24 only (41 R135). -/
theorem pllScale_reserved {p : Params} {turbo : Bool} {req : Nat} {r : Word}
    (h : pllScale p turbo req r = .ok (cur, v, new)) : v &&& ~~~pllMask = 0 := by
  obtain ⟨-, -, -, -, -, hmask, -⟩ := pllScalingKeepsMfdAndPdfAndFloors p turbo req r v cur new h
  exact hmask

/-- PLL scaling up to its first write: the lock and the three reads (41 R135). -/
theorem pllscale_reads (hs : s.seq = .run { word := w, args := a, todo := [.start] }) (hu : Unlocked s)
    (hi : i = .dvfsPllscale ∨ (i = .dvfsReqFreq ∧ s.params.capIntscale = false)) (hc : s.params.capPllscale = true)
    (hv : ValidRequest s a) :
    execTimes i 4 s = .next (locked s w a (pllscaleDivLines s.params a (s.pllsr.getLsbD 3)
      (if s.pllsr.getLsbD 3 then s.tpll else s.mpll) s.div)) := by
  have hlines : (Cont.plsPll (pllsrCurPll s.pllsr)).resume s.params a (s.readCsr (activePll s.pllsr)) =
      [.read .div (.plsDiv (s.pllsr.getLsbD 3) (if s.pllsr.getLsbD 3 then s.tpll else s.mpll))] := by
    rw [readCsr_activePll]
    rfl
  rw [execTimes_succ (exec_acquire hs hu ((pllscale_begins a hi hc).accepted (validate_ok hv))),
    execTimes_succ (exec_locked_read (more := [.read (activePll s.pllsr) (.plsPll (pllsrCurPll s.pllsr))]) rfl),
    execTimes_succ (exec_locked_read hlines), execTimes_succ (exec_locked_read rfl), execTimes_zero]
  rfl

/-- The PLL write and the BRMM reset, `d` being the DIV that was read: one step where its BRMM is 0, else two
(41 R135, R139). -/
theorem pllWriteLines_run {turbo : Bool} {d : Word} {rest : List SeqLine} (hu : Unlocked s)
    (hdiv : s.div &&& ~~~(divMask s.params) = 0) (hd : divBrmm d = divBrmm s.div) (hv : v &&& ~~~pllMask = 0)
    (ht : turbo = true → s.params.capRelock = true) :
    execTimes i (if divBrmm d = 0 then 1 else 2) (locked s w a (pllWriteLines turbo v d ++ rest)) =
      .next (locked (withDiv (withPll s turbo v) (s.div &&& ~~~0x7)) w a rest) := by
  have hu' : Unlocked (withPll s turbo v) := hu
  by_cases h0 : divBrmm d = 0
  · rw [pllWriteLines, if_pos h0, if_neg (not_not.2 h0), List.cons_append, execTimes_succ (exec_locked_write ..),
      execTimes_zero, writePll_eq hv ht, and_not_brmm_of_zero (hd ▸ h0)]
    rfl
  · rw [pllWriteLines, if_neg h0, if_pos h0, List.cons_append, execTimes_succ (exec_locked_write ..),
      writePll_eq hv ht, List.cons_append, execTimes_succ (exec_locked_modifyDiv hu' hdiv rfl), execTimes_zero,
      merge_brmm_zero]
    rfl

end Pllscale

/-- DIV after the dividers and BRMM 0, in either order (41 R138, R139). -/
theorem pllscale_div {s : State} {ap ip : Nat} (hdiv : s.div &&& ~~~(divMask s.params) = 0) (hap : ap < 8)
    (hip : ip < 4) :
    merge s.div 0xF8 (dividerValue ap ip) &&& ~~~0x7 = (s.div &&& 0x100) ||| BitVec.ofNat 32 (64 * ip + 8 * ap) ∧
    merge (s.div &&& ~~~0x7) 0xF8 (dividerValue ap ip) =
      (s.div &&& 0x100) ||| BitVec.ofNat 32 (64 * ip + 8 * ap) := by
  constructor
  · rw [← merge_brmm_zero, mergeDiv_dividers hdiv hap hip]
    exact merge_brmm_dividers s.div 0x107 hap hip (k := 0) (by decide)
  · rw [div_and_eq hdiv]
    exact merge_dividers s.div _ hap hip

section Pllscale
variable {s : State} {w : Word} {a : Args} {i : Instr} {v : Word} {cur new : Nat}

/-- Above the current lock the dividers come first (41 R138). -/
theorem pllscaleDivLines_above {p : Params} {turbo : Bool} {r d : Word}
    (h : pllScale p turbo a.a0.toNat r = .ok (cur, v, new)) (hlt : cur < a.a0.toNat) :
    pllscaleDivLines p a turbo r d =
      adjustLines new a.a1.toNat a.a2.toNat (pllWriteLines turbo v d ++ [.ret 0 0]) := by
  simp only [pllscaleDivLines, u32, h]
  exact if_pos hlt

/-- At or below it the PLL is written first (41 R138). -/
theorem pllscaleDivLines_below {p : Params} {turbo : Bool} {r d : Word}
    (h : pllScale p turbo a.a0.toNat r = .ok (cur, v, new)) (hle : ¬ cur < a.a0.toNat) :
    pllscaleDivLines p a turbo r d =
      pllWriteLines turbo v d ++ adjustLines new a.a1.toNat a.a2.toNat [.ret 0 0] := by
  simp only [pllscaleDivLines, u32, h]
  exact if_neg hle

/-- The dividers, then the PLL word, BRMM 0 and the return (41 R138). -/
theorem dividersThenPll_run {turbo : Bool} {ap ip : Nat} (hu : Unlocked s)
    (hdiv : s.div &&& ~~~(divMask s.params) = 0) (hap : ap < 8) (hip : ip < 4) (hv : v &&& ~~~pllMask = 0)
    (ht : turbo = true → s.params.capRelock = true) :
    execTimes i ((if divBrmm s.div = 0 then 1 else 2) + 2)
      (locked s w a (.op (.modify .div 0xF8 (dividerValue ap ip)) :: (pllWriteLines turbo v s.div ++ [.ret 0 0]))) =
      .next (ended (withDiv (withPll s turbo v) ((s.div &&& 0x100) ||| BitVec.ofNat 32 (64 * ip + 8 * ap))) 0 0) := by
  have hrun := pllWriteLines_run (i := i) (w := w) (a := a) (rest := [.ret 0 0]) (d := s.div)
    (unlocked_withDiv hu (merge s.div 0xF8 (dividerValue ap ip)))
    (mergeDiv_reserved (m := 0xF8) (dividerValue ap ip) hdiv rfl) (divBrmm_merge_dividers ..).symm hv ht
  have hpll : Unlocked (withPll (withDiv s (merge s.div 0xF8 (dividerValue ap ip))) turbo v) := hu
  rw [execTimes_succ (exec_locked_modifyDiv hu hdiv rfl), execTimes_add hrun 1, withDiv_div,
    (pllscale_div hdiv hap hip).1, execTimes_succ (exec_locked_ret (unlocked_withDiv hpll _) 0 0), execTimes_zero]
  rfl

/-- The PLL word and BRMM 0, then the dividers and the return (41 R138). -/
theorem pllThenDividers_run {turbo : Bool} {ap ip : Nat} (hu : Unlocked s)
    (hdiv : s.div &&& ~~~(divMask s.params) = 0) (hap : ap < 8) (hip : ip < 4) (hv : v &&& ~~~pllMask = 0)
    (ht : turbo = true → s.params.capRelock = true) :
    execTimes i ((if divBrmm s.div = 0 then 1 else 2) + 2)
      (locked s w a (pllWriteLines turbo v s.div ++ [.op (.modify .div 0xF8 (dividerValue ap ip)), .ret 0 0])) =
      .next (ended (withDiv (withPll s turbo v) ((s.div &&& 0x100) ||| BitVec.ofNat 32 (64 * ip + 8 * ap))) 0 0) := by
  have hpll : Unlocked (withDiv (withPll s turbo v) (s.div &&& ~~~0x7)) := hu
  rw [execTimes_add (pllWriteLines_run hu hdiv rfl hv ht) 2,
    execTimes_succ (exec_locked_modifyDiv hpll (and_reserved hdiv _) rfl), withDiv_div, (pllscale_div hdiv hap hip).2,
    execTimes_succ (exec_locked_ret (unlocked_withDiv hpll _) 0 0), execTimes_zero]
  rfl

end Pllscale

/-- Settles O24: above the current lock the dividers come before the PLL write and the BRMM reset, else after. -/
theorem pllscaleWritesThePllAndTheDividers : Obligations.PllscaleWritesThePllAndTheDividers := by
  intro s a i cur new ap ip v ⟨w, hs⟩ hu hregs hi hc hv hscale hbus hper hap hip
  obtain ⟨hdiv, -, htpll, -⟩ := hregs
  have hword := pllScale_reserved hscale
  have hrelock := capRelock_of_pllScale htpll hscale
  have hsteps : (if divBrmm s.div = 0 then 7 else 8) = 4 + ((if divBrmm s.div = 0 then 1 else 2) + 2) := by
    split <;> rfl
  rw [hsteps, execTimes_add (pllscale_reads hs hu hi hc hv)]
  by_cases habove : cur < a.a0.toNat
  · rw [pllscaleDivLines_above hscale habove, adjustLines_ok hbus hper hap hip,
      dividersThenPll_run hu hdiv (ahbPdf_lt hap) (ipgPdf_lt hip) hword hrelock]
    rfl
  · rw [pllscaleDivLines_below hscale habove, adjustLines_ok hbus hper hap hip,
      pllThenDividers_run hu hdiv (ahbPdf_lt hap) (ipgPdf_lt hip) hword hrelock]
    rfl

/-- Settles O25: the raise comes in the place of the divider write, before the PLL write or after it. -/
theorem pllscaleDividerErrorsLeavePartialState : Obligations.PllscaleDividerErrorsLeavePartialState := by
  intro s a i cur new v r ⟨w, hs⟩ hu hregs hi hc hv hscale hbus hper herr
  obtain ⟨hdiv, -, htpll, -⟩ := hregs
  obtain ⟨e, he, rfl⟩ : ∃ e, DividerError new a.a1.toNat a.a2.toNat e ∧ e.result = r := by
    obtain ⟨ha, rfl⟩ | ⟨ap, ha, hi, rfl⟩ := herr
    · exact ⟨_, .inl ha, rfl⟩
    · exact ⟨_, .inr ⟨ap, ha, hi⟩, rfl⟩
  refine ⟨fun habove => ?_, fun hle => ?_⟩
  · rw [execTimes_add (pllscale_reads hs hu hi hc hv) 1, pllscaleDivLines_above hscale habove,
      adjustLines_error hbus hper he, execTimes_succ (exec_locked_raise hu e), execTimes_zero]
  · have hsteps : (if divBrmm s.div = 0 then 6 else 7) = 4 + ((if divBrmm s.div = 0 then 1 else 2) + 1) := by
      split <;> rfl
    have hpll : Unlocked (withDiv (withPll s (s.pllsr.getLsbD 3) v) (s.div &&& ~~~0x7)) := hu
    rw [hsteps, execTimes_add (pllscale_reads hs hu hi hc hv), pllscaleDivLines_below hscale (not_lt.2 hle),
      adjustLines_error hbus hper he,
      execTimes_add (pllWriteLines_run hu hdiv rfl (pllScale_reserved hscale) (capRelock_of_pllScale htpll hscale)) 1,
      execTimes_succ (exec_locked_raise hpll e), execTimes_zero]
    rfl

end Sys2Proof.Machine
end

section
/-! SUPPORT. The relock (41 R140 to R147) and the DVFS block's commands (41 R148 to R150, 43 R202). -/

namespace Sys2Proof.Machine

/-! ### The relock -/

section Relock
variable {s : State} {w : Word} {a : Args} {t : Bool} {f : Nat}

theorem relockTarget_of_arg (ha : a.a0 = if t then 1 else 0) : relockTarget a = t := by
  rw [relockTarget, ha]
  cases t <;> rfl

theorem relockArg_le (ha : a.a0 = if t then 1 else 0) : a.a0.toNat ≤ 1 := by
  rw [ha]
  cases t <;> decide

/-- A switch in progress (41 R141). -/
theorem relockPllsrLines_busy {v : Word} (hb : v.getLsbD 2 = true) :
    relockPllsrLines a v = [.raise .dfspSwitchInProgress] := if_pos hb

/-- The target drives the core already (41 R146). -/
theorem relockPllsrLines_same {v : Word} (hb : v.getLsbD 2 = false) (h : v.getLsbD 3 = relockTarget a) :
    relockPllsrLines a v = [.ret 0 0] := (if_neg (by rw [pllsrBusy, bit, hb]; decide)).trans (if_pos h)

theorem relockPllsrLines_other {v : Word} (hb : v.getLsbD 2 = false) (h : v.getLsbD 3 ≠ relockTarget a) :
    relockPllsrLines a v = [.read (pllCsr (relockTarget a)) .rlkPll] :=
  (if_neg (by rw [pllsrBusy, bit, hb]; decide)).trans (if_neg h)

/-- The relock up to its first test of PLLSR: the lock and the read (41 R140). -/
theorem relock_reads_pllsr (hs : s.seq = .run { word := w, args := a, todo := [.start] }) (hu : Unlocked s)
    (hc : s.params.capRelock = true) (ha : a.a0.toNat ≤ 1) :
    execTimes .dvfsRelock 2 s = .next (locked s w a (relockPllsrLines a s.pllsr)) := by
  have hplan : planOf .dvfsRelock s a = [.acquireDvfs, .read .pllsr .rlkPllsr] :=
    (if_neg (by rw [hc]; decide)).trans (if_neg (not_lt.2 ha))
  rw [execTimes_succ (exec_acquire hs hu hplan), execTimes_succ (exec_locked_read rfl), execTimes_zero]
  rfl

/-- The relock to the other PLL up to its write: the read of the target's register (41 R140). -/
theorem relock_reads_pll (hs : s.seq = .run { word := w, args := a, todo := [.start] }) (hu : Unlocked s)
    (hc : s.params.capRelock = true) (ha : a.a0 = if t then 1 else 0) (hb : s.pllsr.getLsbD 2 = false)
    (hne : s.pllsr.getLsbD 3 ≠ t) :
    execTimes .dvfsRelock 3 s = .next (locked s w a (relockPllLines s.params a (if t then s.tpll else s.mpll))) := by
  have htarget := relockTarget_of_arg ha
  have hread : Cont.rlkPll.resume s.params a (s.readCsr (pllCsr t)) =
      relockPllLines s.params a (if t then s.tpll else s.mpll) :=
    congrArg (relockPllLines s.params a) (readCsr_pllCsr s t)
  rw [execTimes_add (relock_reads_pllsr hs hu hc (relockArg_le ha)) 1,
    relockPllsrLines_other hb (htarget ▸ hne), htarget, execTimes_succ (exec_locked_read hread), execTimes_zero]

/-- The relock's write and what follows it (41 R142 to R145). -/
theorem relockPllLines_ok {p : Params} {r : Word} (ha : a.a0 = if t then 1 else 0) (hf : pllHz p t r = .ok f)
    (hbus : 0 < p.busMaxHz) (hpdf : relockPdf f p.busMaxHz ≤ 7) :
    relockPllLines p a r =
      [.op (.modify .div 0x13F (relockValue (if t then 1 else 0) (relockPdf f p.busMaxHz))), .poll (.lock t),
        .poll .swDone, .op (.write .pllsr 0x10), .ret 0 0] := by
  simp only [relockPllLines, relockTarget_of_arg ha, hf, ha]
  exact (if_neg hbus.ne').trans (if_neg (not_lt.2 hpdf))

theorem relockPllLines_error {p : Params} {r : Word} (ha : a.a0 = if t then 1 else 0) (hf : pllHz p t r = .ok f)
    (hbus : 0 < p.busMaxHz) (hpdf : 7 < relockPdf f p.busMaxHz) :
    relockPllLines p a r = [.raise .ahbMaxDividerExceeded] := by
  simp only [relockPllLines, relockTarget_of_arg ha, hf]
  exact (if_neg hbus.ne').trans (if_pos hpdf)

end Relock

/-- Settles O27: after PLLSR there is nothing to do but to return. -/
theorem relockToTheSamePllWritesNothing : Obligations.RelockToTheSamePllWritesNothing := by
  intro s a t ⟨w, hs⟩ hu hc ha hb heq
  rw [execTimes_add (relock_reads_pllsr hs hu hc (relockArg_le ha)) 1,
    relockPllsrLines_same hb (heq.trans (relockTarget_of_arg ha).symm), execTimes_succ (exec_locked_ret hu 0 0),
    execTimes_zero]

/-- Settles O28: the checks, then PLLSR, then the divider, each before the write. -/
theorem relockErrorsWriteNothing : Obligations.RelockErrorsWriteNothing := by
  intro s a ⟨w, hs⟩ hu
  refine ⟨fun hc => ?_, fun hc hmode => ?_, fun hc ha hb => ?_, fun t f hc ha hb hne hf hbus hpdf => ?_⟩
  · have hplan : planOf .dvfsRelock s a = [.raise .apiNotSupported] := if_pos (by rw [hc]; rfl)
    exact exec_refuse hs hu hplan
  · have hplan : planOf .dvfsRelock s a = [.raise .invalidMode] :=
      (if_neg (by rw [hc]; decide)).trans (if_pos hmode)
    exact exec_refuse hs hu hplan
  · rw [execTimes_add (relock_reads_pllsr hs hu hc ha) 1, relockPllsrLines_busy hb,
      execTimes_succ (exec_locked_raise hu _), execTimes_zero]
    rfl
  · rw [execTimes_add (relock_reads_pll hs hu hc ha hb hne) 1, relockPllLines_error ha hf hbus hpdf,
      execTimes_succ (exec_locked_raise hu _), execTimes_zero]
    rfl

/-! ### The switch of a relock -/

section Switch
variable {s : State} {w : Word} {a : Args} {t : Bool}

/-- `s` during and after the switch that a relock to `t` starts, with `v` in DIV and PLLSR as given (10_state R27). -/
def relocking (s : State) (v : Word) (t : Bool) (pllsr : Word) : State :=
  { s with div := v, pllTarget := t, pllsr := pllsr }

/-- The fields of DIV after the combined write: PLL_SEL, AHB_PDF and BRMM 0, with IPG_PDF kept (41 R142). -/
theorem merge_relock (d : Word) (t : Bool) {pdf : Nat} (hpdf : pdf ≤ 7) :
    merge (d &&& 0x1FF) 0x13F (relockValue (if t then 1 else 0) pdf) =
      (d &&& 0x0C0) ||| BitVec.ofNat 32 ((if t then 256 else 0) + 8 * pdf) := by
  have hfit : ∀ t : Bool, ∀ pdf < 8, relockValue (if t then 1 else 0) pdf &&& 0x13F =
      BitVec.ofNat 32 ((if t then 256 else 0) + 8 * pdf) := by decide
  rw [merge, BitVec.and_assoc, hfit t pdf (by omega)]
  rfl

theorem ofNat_relock_pllSel : ∀ t : Bool, ∀ pdf < 8,
    (BitVec.ofNat 32 ((if t then 256 else 0) + 8 * pdf)).getLsbD 8 = t ∧
    BitVec.ofNat 32 ((if t then 256 else 0) + 8 * pdf) &&& 0x1FF =
      BitVec.ofNat 32 ((if t then 256 else 0) + 8 * pdf) := by decide

/-- The relock's write starts the switch to the target (41 R142, 10_state R27). -/
theorem modifyDiv_relock {pdf : Nat} (hc : s.params.capRelock = true) (hdiv : s.div &&& ~~~(divMask s.params) = 0)
    (hb : s.pllsr.getLsbD 2 = false) (hne : s.div.getLsbD 8 ≠ t) (hpdf : pdf ≤ 7) :
    s.modifyCsr .div 0x13F (relockValue (if t then 1 else 0) pdf) =
      relocking s ((s.div &&& 0x0C0) ||| BitVec.ofNat 32 ((if t then 256 else 0) + 8 * pdf)) t (s.pllsr ||| 0x4) := by
  obtain ⟨hsel, hfit⟩ := ofNat_relock_pllSel t pdf (by omega)
  have hmerge := merge_relock s.div t hpdf
  rw [div_and_eq_self hdiv] at hmerge
  have hsel' : ((s.div &&& 0x0C0) ||| BitVec.ofNat 32 ((if t then 256 else 0) + 8 * pdf)).getLsbD 8 = t := by
    rw [BitVec.getLsbD_or, BitVec.getLsbD_and, hsel]
    simp
  change s.writeDiv (merge s.div 0x13F _) = _
  rw [hmerge, writeDiv_starts hc (by rw [hsel']; exact hne.symm) hb, hsel', BitVec.and_or_distrib_right, hfit,
    BitVec.and_assoc]
  rfl

/-- ENV_PLL's lock of a switch in progress, also where the target is locked already (10_state R27 step 1). -/
theorem envPllLock_eq (hb : pllsrBusy s.pllsr = true) :
    envPllLock s = { s with pllsr := s.pllsr ||| (if s.pllTarget then 0x2 else 0x1) } := by
  cases hl : pllsrLock s.pllsr s.pllTarget with
  | false => exact envPllLock_locks hb hl
  | true =>
    have hset : s.pllsr ||| (if s.pllTarget then 0x2 else 0x1) = s.pllsr := by
      cases ht : s.pllTarget <;> rw [ht] at hl
      · have h0 : s.pllsr[0] = true := by simpa [pllsrLock, bit] using hl
        ext i hi
        interval_cases i <;> simp [h0]
      · have h1 : s.pllsr[1] = true := by simpa [pllsrLock, bit] using hl
        ext i hi
        interval_cases i <;> simp [h1]
    rw [hset]
    simp [envPllLock, hl]

/-- PLLSR once the target of a relock is locked and drives the core (10_state R27). -/
def switchedPllsr (w : Word) (t : Bool) : Word := if t then w ||| 0x1A else (w &&& ~~~0x8) ||| 0x11

/-- ENV_PLL locks the target of a relock and completes its switch (10_state R27). -/
theorem envPll_relocking {v : Word} {todo : List SeqLine} (hb : s.pllsr.getLsbD 2 = false) :
    envPllDone (envPllLock (locked (relocking s v t (s.pllsr ||| 0x4)) w a todo)) =
      locked (relocking s v t (switchedPllsr s.pllsr t)) w a todo := by
  have hbusy : pllsrBusy (s.pllsr ||| 0x4) = true := by simp [pllsrBusy, bit]
  have hlock := envPllLock_eq (s := locked (relocking s v t (s.pllsr ||| 0x4)) w a todo) hbusy
  have hbusy' : pllsrBusy (s.pllsr ||| (if t then 0x6 else 0x5)) = true := by cases t <;> simp [pllsrBusy, bit]
  have hlocked : pllsrLock (s.pllsr ||| (if t then 0x6 else 0x5)) t = true := by cases t <;> simp [pllsrLock, bit]
  have hdone := envPllDone_completes
    (s := locked (relocking s v t (s.pllsr ||| (if t then 0x6 else 0x5))) w a todo) hbusy' hlocked
  have hstart : (locked (relocking s v t (s.pllsr ||| 0x4)) w a todo).pllsr |||
      (if (locked (relocking s v t (s.pllsr ||| 0x4)) w a todo).pllTarget then 0x2 else 0x1) =
      s.pllsr ||| (if t then 0x6 else 0x5) := pllsr_locking s.pllsr t
  rw [hlock, hstart]
  refine hdone.trans ?_
  have hend := pllsr_switched hb t
  exact congrArg (fun x => locked (relocking s v t x) w a todo) hend

theorem switchedPllsr_lock (v : Word) (t : Bool) : pllsrLock (switchedPllsr v t) t = true := by
  cases t <;> simp [switchedPllsr, pllsrLock, bit]

theorem switchedPllsr_swDone (v : Word) (t : Bool) : pllsrSwDone (switchedPllsr v t) = true := by
  cases t <;> simp [switchedPllsr, pllsrSwDone, bit]

/-- The clear of SW_DONE (41 R145). -/
theorem pllsrWrite_switched (v : Word) (t : Bool) :
    pllsrWrite (switchedPllsr v t) 0x10 = if t then (v &&& ~~~0x10) ||| 0xA else (v &&& ~~~0x18) ||| 0x1 := by
  cases t <;> simp only [switchedPllsr, pllsrWrite, bit] <;> ext i hi <;> interval_cases i <;> simp

/-- The end of a relock whose target is locked and drives the core: both polls, the clear of SW_DONE and the return
(41 R143 to R145). -/
theorem relock_polls {v : Word} (hu : Unlocked s) :
    execTimes .dvfsRelock 4 (locked (relocking s v t (switchedPllsr s.pllsr t)) w a
      [.poll (.lock t), .poll .swDone, .op (.write .pllsr 0x10), .ret 0 0]) =
      .next (ended (relocking s v t (pllsrWrite (switchedPllsr s.pllsr t) 0x10)) 0 0) := by
  have hswitched : Unlocked (relocking s v t (switchedPllsr s.pllsr t)) := hu
  have hclear : Unlocked ((relocking s v t (switchedPllsr s.pllsr t)).writeCsr .pllsr 0x10) := hu
  rw [execTimes_succ (exec_locked_poll (b := .lock t) hswitched.1 (switchedPllsr_lock ..)),
    execTimes_succ (exec_locked_poll (b := .swDone) hswitched.1 (switchedPllsr_swDone ..)),
    execTimes_succ (exec_locked_write ..), execTimes_succ (exec_locked_ret hclear 0 0), execTimes_zero]
  rfl

end Switch

/-- Settles O26: the write starts the switch, ENV_PLL ends it, and both polls then read 1. -/
theorem relockSwitchesThePll : Obligations.RelockSwitchesThePll := by
  intro s a t f ⟨w, hs⟩ hu hregs hc ha hb hne hsel hf hbus hpdf
  have hfour : execTimes .dvfsRelock 4 s = .next (locked (relocking s
      ((s.div &&& 0x0C0) ||| BitVec.ofNat 32 ((if t then 256 else 0) + 8 * relockPdf f s.params.busMaxHz)) t
      (s.pllsr ||| 0x4)) w a [.poll (.lock t), .poll .swDone, .op (.write .pllsr 0x10), .ret 0 0]) := by
    rw [execTimes_add (relock_reads_pll hs hu hc ha hb hne) 1, relockPllLines_ok ha hf hbus hpdf,
      execTimes_succ (exec_locked_modify hu.1 ..), modifyDiv_relock hc hregs.1 hb hsel hpdf, execTimes_zero]
  refine ⟨_, hfour, rfl, rfl, rfl, rfl, fun hl => ?_, ?_⟩
  · exact exec_locked_poll_wait ((pllsrLock_or_busy ..).trans ((pllsrLock_eq ..).trans hl))
  · rw [envPll_relocking hb, relock_polls hu, pllsrWrite_switched]
    rfl

/-! ### The DVFS block -/

section DvfsBlock
variable {s : State} {w : Word} {a : Args} {i : Instr}

/-- A masked write of DVFS_EN, where there is a DVFS block (10_state R37). -/
theorem modifyDvfscr_eq (hc : s.params.capDvfsHw = true) (b : Bool) :
    s.modifyCsr .dvfscr 0x1 (bitWord b) = { s with dvfscr := bitWord b } := by
  have hmask : dvfscrMask s.params = 0x1 := if_pos hc
  have hbit : merge s.dvfscr 0x1 (bitWord b) &&& 0x1 = bitWord b := by
    rw [merge, BitVec.and_or_distrib_right, BitVec.and_assoc, BitVec.and_assoc]
    cases b <;> simp [bitWord]
  change { s with dvfscr := merge s.dvfscr 0x1 (bitWord b) &&& dvfscrMask s.params } = _
  rw [hmask, hbit]

/-- The return of a command that holds no lock (60 R320). -/
theorem execTimes_ret {v0 v1 : Word} (hs : s.seq = .run { word := w, args := a, todo := [.ret v0 v1] })
    (hfree : s.dvfsLock = .free) : execTimes i 1 s = .next (ended s v0 v1) := by
  rw [execTimes_succ (exec_line_ended hs (by simp) (SeqLine.run_over_iff.2 .ret)), execTimes_zero,
    finish_of_free hfree]

/-- The three lines that set or clear DVFS_EN and `S.dvfs_active` (41 R148, R149). -/
theorem dvfsBlock_run {b : Bool} (hs : s.seq = .run { word := w, args := a, todo := [.start] }) (hu : Unlocked s)
    (hc : s.params.capDvfsHw = true)
    (hp : planOf i s a = [.op (.modify .dvfscr 0x1 (bitWord b)), .assign (.dvfsActive b), .ret 0 0]) :
    execTimes i 3 s = .next { ended s 0 0 with dvfscr := bitWord b, dvfsActive := b } := by
  obtain ⟨hreg, hfree, -, -⟩ := hu
  have hwrite := exec_start_done hs hp (SeqLine.run_done_iff.2 (.op (.modify hreg)))
  rw [modifyDvfscr_eq hc] at hwrite
  rw [execTimes_succ hwrite, execTimes_succ (exec_line_done rfl (by simp) (SeqLine.run_done_iff.2 .dvfsActive))]
  exact execTimes_ret rfl hfree

end DvfsBlock

/-- Settles O29: the checks in order, then the three lines of the enable or the disable. -/
theorem dvfsBlockIsEnabledAndDisabled : Obligations.DvfsBlockIsEnabledAndDisabled := by
  intro s a ⟨w, hs⟩ hu hsus
  refine ⟨fun hc hact => ?_, fun hc hact => ?_, fun hc => ⟨?_, ?_⟩, fun hc hact => ?_, fun hc hact => ?_⟩
  · exact dvfsBlock_run (b := true) hs hu hc (by simp [planOf, dvfsEnablePlan, hsus, hc, hact, bitWord])
  · exact dvfsBlock_run (b := false) hs hu hc (by simp [planOf, dvfsDisablePlan, hsus, hc, hact, bitWord])
  · exact exec_refuse hs hu (e := .apiNotSupported) (by simp [planOf, dvfsEnablePlan, hsus, hc])
  · exact exec_refuse hs hu (e := .apiNotSupported) (by simp [planOf, dvfsDisablePlan, hsus, hc])
  · exact exec_refuse hs hu (e := .alreadyActive) (by simp [planOf, dvfsEnablePlan, hsus, hc, hact])
  · exact exec_refuse hs hu (e := .alreadyInactive) (by simp [planOf, dvfsDisablePlan, hsus, hc, hact])

/-- A command whose only line is a return (60 R320). -/
theorem exec_answer {s : State} {w v0 v1 : Word} {a : Args} {i : Instr}
    (hs : s.seq = .run { word := w, args := a, todo := [.start] }) (hu : Unlocked s)
    (hp : planOf i s a = [.ret v0 v1]) : exec i s = .next (ended s v0 v1) := by
  rw [exec_start_ended hs hp (SeqLine.run_over_iff.2 .ret), finish_of_free hu.2.1]

/-- Settles O30: each getter's plan is one return, whether suspended or not. -/
theorem stateGettersAnswerInOneStep : Obligations.StateGettersAnswerInOneStep := by
  intro s a ⟨w, hs⟩ hu
  refine ⟨exec_answer hs hu rfl, fun hc => exec_answer hs hu ?_, fun hc => ?_⟩
  · exact if_neg (by rw [hc]; decide)
  · have hplan : planOf .dvfsGetState s a = [.raise .apiNotSupported] := if_pos (by rw [hc]; rfl)
    exact exec_refuse hs hu hplan

end Sys2Proof.Machine
end

section
/-! SUPPORT. The low-power-mode command (42 R170 to R180): the mode check and the probe read, and the lines it runs with
interrupts off. -/

namespace Sys2Proof.Machine

/-- A run goes one step further. -/
theorem execTimes_snoc {i : Instr} {n : Nat} {s u t : State} (hn : execTimes i n s = .next u)
    (h : exec i u = .next t) : execTimes i (n + 1) s = .next t := by
  rw [execTimes_add hn 1, execTimes_succ h, execTimes_zero]

/-! ### Masked writes of LPMCR and INTEN -/

/-- A masked write of ones sets its bits (00_scope R13). -/
theorem merge_ones (d m : Word) : merge d m m = d ||| m := by
  rw [merge, BitVec.and_self]
  ext i hi
  cases hm : m[i] <;> simp [hm]

/-- A masked write of zeros clears its bits (00_scope R13). -/
theorem merge_zeros (d m : Word) : merge d m 0 = d &&& ~~~m := by simp [merge]

/-- A masked write keeps to the bits that exist where its mask does. -/
theorem merge_reserved {d m x : Word} (v : Word) (hd : d &&& x = 0) (hm : m &&& x = 0) : merge d m v &&& x = 0 := by
  refine or_reserved (and_reserved hd _) ?_
  rw [BitVec.and_comm v]
  exact and_reserved hm v

/-- A masked write of LPMCR that keeps to its bits (10_state R29). -/
theorem modifyLpmcr_eq {s : State} {m : Word} (v : Word) (hd : s.lpmcr &&& ~~~0x1F = 0) (hm : m &&& ~~~0x1F = 0) :
    s.modifyCsr .lpmcr m v = { s with lpmcr := merge s.lpmcr m v } :=
  congrArg (fun x => { s with lpmcr := x }) (and_eq_self_of_reserved (merge_reserved v hd hm))

/-- INTEN has the one bit TIMER_IE: clearing it leaves 0 (42 R172). -/
theorem modifyInten_clear (s : State) : s.modifyCsr .inten 0x1 0 = { s with inten := 0 } := by
  have hclear : merge s.inten 0x1 0 &&& intenMask = 0 := by
    rw [merge_zeros, BitVec.and_assoc]
    exact BitVec.and_zero
  exact congrArg (fun x => { s with inten := x }) hclear

/-! ### The lines of LPM_ENTER -/

/-- `s` while LPM_ENTER is inside its interrupt bracket, with INTEN and LPMCR as given and the lines `todo` still to
run (42 R170, R172). -/
def inBracket (s : State) (w : Word) (a : Args) (inten lpmcr : Word) (todo : List SeqLine) : State :=
  { s with irqOff := true, inten := inten, lpmcr := lpmcr, seq := .run { word := w, args := a, todo := todo } }

section Lines
variable {s : State} {w x lpm : Word} {a : Args} {i : Instr} {rest : List SeqLine}

/-- The check of the mode (42 R180). -/
theorem lpmEnterPlan_refuses (h : 3 < a.a0.toNat) : planOf .lpmEnter s a = [.raise .invalidMode] := if_pos h

theorem lpmEnterPlan_reads (h : a.a0.toNat ≤ 3) : planOf .lpmEnter s a = [.read .dbgsr .lpmProbe] :=
  if_neg (not_lt.2 h)

/-- What a mode does after DBGSR is the probe's bit: return 1, or open the bracket (42 R171). -/
theorem lpmProbeLines_bitWord (a : Args) (b : Bool) :
    lpmProbeLines a (bitWord b) = if b then [.ret 1 0] else [.lpmBracket (u32 a.a0)] := by
  cases b <;> rfl

/-- The first step of LPM_ENTER in a mode: the read of DBGSR (42 R171). -/
theorem lpm_reads_probe (hs : s.seq = .run { word := w, args := a, todo := [.start] }) (hmode : a.a0.toNat ≤ 3) :
    exec .lpmEnter s = .next { s with seq := .run { word := w, args := a, todo :=
      if s.env.probe then [.ret 1 0] else [.lpmBracket (u32 a.a0)] } } := by
  rw [exec_start_done hs (lpmEnterPlan_reads hmode) (SeqLine.run_done_iff.2 .read), List.append_nil,
    ← lpmProbeLines_bitWord]
  rfl

/-- Without a probe the second step opens the bracket (42 R172). -/
theorem lpm_opens_bracket (hs : s.seq = .run { word := w, args := a, todo := [.start] }) (hmode : a.a0.toNat ≤ 3)
    (hprobe : s.env.probe = false) :
    execTimes .lpmEnter 2 s = .next (inBracket s w a s.inten s.lpmcr (lpmLines (u32 a.a0) s.irqOff)) := by
  have hread := lpm_reads_probe hs hmode
  rw [hprobe] at hread
  rw [execTimes_succ hread, execTimes_succ (exec_line_done rfl (by simp) (SeqLine.run_done_iff.2 .bracket)),
    execTimes_zero, List.append_nil]
  rfl

/-- The lines of DEEP_SLEEP inside the bracket, in order (42 R172, R175 to R177). -/
theorem lpmLines_deepSleep (saved : Bool) :
    lpmLines 3 saved =
      [.op (.modify .inten 0x1 0), .op (.modify .lpmcr 0x8 0x8), .op (.modify .lpmcr 0x10 0x10),
       .op (.modify .lpmcr 0x4 0), .op (.modify .lpmcr 0x3 0x3),
       .wfi, .op (.modify .inten 0x1 0x1), .restoreIrq saved, .ret 0 0] := rfl

/-- The line that turns the timer interrupt off (42 R172). -/
theorem exec_bracket_timerOff (hl : s.regLock = .free) :
    exec i (inBracket s w a x lpm (.op (.modify .inten 0x1 0) :: rest)) = .next (inBracket s w a 0 lpm rest) := by
  rw [exec_line_done (s := inBracket s w a x lpm _) rfl (by simp) (SeqLine.run_done_iff.2 (.op (.modify hl))),
    modifyInten_clear]
  rfl

/-- A masked write of LPMCR inside the bracket (42 R174, R175). -/
theorem exec_bracket_modifyLpmcr {m v : Word} (hl : s.regLock = .free) (hlpm : lpm &&& ~~~0x1F = 0)
    (hm : m &&& ~~~0x1F = 0) :
    exec i (inBracket s w a x lpm (.op (.modify .lpmcr m v) :: rest)) =
      .next (inBracket s w a x (merge lpm m v) rest) := by
  rw [exec_line_done (s := inBracket s w a x lpm _) rfl (by simp) (SeqLine.run_done_iff.2 (.op (.modify hl))),
    modifyLpmcr_eq v hlpm hm]
  rfl

/-- A line that sets bits of LPMCR (42 R175). -/
theorem exec_bracket_setLpmcr {m : Word} (hl : s.regLock = .free) (hlpm : lpm &&& ~~~0x1F = 0)
    (hm : m &&& ~~~0x1F = 0) :
    exec i (inBracket s w a x lpm (.op (.modify .lpmcr m m) :: rest)) = .next (inBracket s w a x (lpm ||| m) rest) := by
  rw [exec_bracket_modifyLpmcr hl hlpm hm, merge_ones]

/-- A line that clears bits of LPMCR (42 R175). -/
theorem exec_bracket_clearLpmcr {m : Word} (hl : s.regLock = .free) (hlpm : lpm &&& ~~~0x1F = 0)
    (hm : m &&& ~~~0x1F = 0) :
    exec i (inBracket s w a x lpm (.op (.modify .lpmcr m 0) :: rest)) =
      .next (inBracket s w a x (lpm &&& ~~~m) rest) := by
  rw [exec_bracket_modifyLpmcr hl hlpm hm, merge_zeros]

end Lines

/-- Settles O32: the plan is the raise, or the read of DBGSR and then the return. -/
theorem lpmRefusesBadModesAndSkipsWithAProbe : Obligations.LpmRefusesBadModesAndSkipsWithAProbe := by
  intro s a ⟨w, hs⟩ hu
  refine ⟨fun hbad => exec_refuse hs hu (lpmEnterPlan_refuses hbad), fun hmode hprobe => ?_⟩
  have hread := lpm_reads_probe hs hmode
  rw [hprobe] at hread
  rw [execTimes_succ hread]
  exact execTimes_ret rfl hu.2.1

/-- Settles O34: the bracket, then the timer's line and the four lines of LPMCR, each a step that goes on from the one
before. -/
theorem deepSleepWritesInOrder : Obligations.DeepSleepWritesInOrder := by
  intro s a ⟨w, hs⟩ hl hprobe hmode hlpm k lpm hk
  have hbracket := lpm_opens_bracket hs (by rw [hmode]; decide) hprobe
  have hdeep : u32 a.a0 = 3 := by rw [hmode]; rfl
  rw [hdeep, lpmLines_deepSleep] at hbracket
  have htimer := execTimes_snoc hbracket (exec_bracket_timerOff hl)
  have hwben := execTimes_snoc htimer (exec_bracket_setLpmcr hl hlpm (by decide))
  have hlpmWben : (s.lpmcr ||| 0x8) &&& ~~~0x1F = 0 := or_reserved hlpm (by decide)
  have hsbyos := execTimes_snoc hwben (exec_bracket_setLpmcr hl hlpmWben (by decide))
  rw [BitVec.or_assoc] at hsbyos
  have hlpmSbyos : (s.lpmcr ||| 0x18) &&& ~~~0x1F = 0 := or_reserved hlpm (by decide)
  have hpllDis := execTimes_snoc hsbyos (exec_bracket_clearLpmcr hl hlpmSbyos (by decide))
  have hlpmBits := execTimes_snoc hpllDis (exec_bracket_setLpmcr hl (and_reserved hlpmSbyos _) (by decide))
  simp only [List.mem_cons, Prod.mk.injEq, List.not_mem_nil, or_false] at hk
  obtain ⟨rfl, rfl⟩ | ⟨rfl, rfl⟩ | ⟨rfl, rfl⟩ | ⟨rfl, rfl⟩ | ⟨rfl, rfl⟩ := hk
  · exact ⟨_, htimer, rfl, rfl⟩
  · exact ⟨_, hwben, rfl, rfl⟩
  · exact ⟨_, hsbyos, rfl, rfl⟩
  · exact ⟨_, hpllDis, rfl, rfl⟩
  · exact ⟨_, hlpmBits, rfl, rfl⟩

end Sys2Proof.Machine
end

section
/-! SUPPORT. The shared procedures as runs of their lines (43 R192 to R199, 46 R300): `OpsRun` says what a whole
apply_voltage, update_thresholds, log_insert and set_wp leave and in how many steps, and `OpsRun.execTimes_lines` that
SEQ, on its own, runs them so inside a command. -/

namespace Sys2Proof.Machine

/-! ### Runs of procedure lines -/

/-- `OpsRun n s ops t`: the procedure lines `ops`, with the lines they call, are done from `s` in `n` atomic steps and
leave `t`. It speaks of no agent's position. -/
inductive OpsRun : Nat → State → List Op → State → Prop
  | nil {s} : OpsRun 0 s [] s
  | cons {n s o s' more ops t} : OpEffect s o s' more → OpsRun n s' (more ++ ops) t → OpsRun (n + 1) s (o :: ops) t

theorem OpsRun.append {m n : Nat} {s u t : State} {xs ys : List Op} (hx : OpsRun m s xs u) (hy : OpsRun n u ys t) :
    OpsRun (m + n) s (xs ++ ys) t := by
  induction hx with
  | nil => rwa [Nat.zero_add]
  | cons he _ ih =>
    rw [Nat.succ_add, List.cons_append]
    refine .cons he ?_
    rw [← List.append_assoc]
    exact ih hy

/-- A line on its own, with the lines it calls. -/
theorem OpsRun.call {n : Nat} {s s' t : State} {o : Op} {more : List Op} (h : OpEffect s o s' more)
    (hmore : OpsRun n s' more t) : OpsRun (n + 1) s [o] t := .cons h (by rwa [List.append_nil])

/-- A line on its own that calls no others. -/
theorem OpsRun.single {s s' : State} {o : Op} (h : OpEffect s o s' []) : OpsRun 1 s [o] s' := .call h .nil

/-! ### Lines of a command that holds no lock -/

/-- `s` while SEQ runs a command and has the lines `todo` still to run (10_state R21). -/
def withLines (s : State) (w : Word) (a : Args) (todo : List SeqLine) : State :=
  { s with seq := .run { word := w, args := a, todo := todo } }

/-- A register write does not look at SEQ's position. -/
theorem writeCsr_withLines (s : State) (w : Word) (a : Args) (todo : List SeqLine) (r : Csr) (v : Word) :
    (withLines s w a todo).writeCsr r v = withLines (s.writeCsr r v) w a todo := by
  cases r with
  | div =>
    simp only [State.writeCsr, State.writeDiv]
    rw [apply_ite (withLines · w a todo)]
    rfl
  | _ => rfl

theorem modifyCsr_withLines (s : State) (w : Word) (a : Args) (todo : List SeqLine) (r : Csr) (m v : Word) :
    (withLines s w a todo).modifyCsr r m v = withLines (s.modifyCsr r m v) w a todo := by
  have hread : (withLines s w a todo).readCsr r = s.readCsr r := by cases r <;> rfl
  rw [State.modifyCsr, hread, writeCsr_withLines]
  rfl

section Lines
variable {s s' t : State} {w : Word} {a : Args} {i : Instr} {rest todo : List SeqLine} {n : Nat}

/-- A line of a shared procedure does not look at SEQ's position (20_memory R80). -/
theorem OpEffect.inCommand {o : Op} {more : List Op} (h : OpEffect s o s' more) :
    OpEffect (withLines s w a todo) o (withLines s' w a todo) more := by
  cases h with
  | modify hl => rw [← modifyCsr_withLines]; exact .modify hl
  | write => rw [← writeCsr_withLines]; exact .write
  | rcEnable hl => rw [← modifyCsr_withLines]; exact .rcEnable hl
  | setWpSdma ht hS => exact .setWpSdma ht hS
  | setWpPlain ht hS => exact .setWpPlain ht hS
  | setCurrWp ht => exact .setCurrWp ht
  | thresholds ht hq => exact .thresholds ht hq
  | pmicGet hp => exact .pmicGet hp
  | pmicSet hp ht hv => exact .pmicSet hp ht hv
  | logInsert hl he => exact .logInsert hl he

/-- A step of a command after its first. -/
theorem exec_lines {l : SeqLine} {more : List SeqLine} (h : SeqEffect (withLines s w a (l :: rest)) a l s' more) :
    exec i (withLines s w a (l :: rest)) = .next (withLines s' w a (more ++ rest)) :=
  exec_line_done (s := withLines s w a (l :: rest)) rfl (by rintro rfl; cases h) (SeqLine.run_done_iff.2 h)

/-- A step whose line is one of a shared procedure. -/
theorem exec_lines_op {o : Op} {more : List Op} (h : OpEffect s o s' more) :
    exec i (withLines s w a (.op o :: rest)) = .next (withLines s' w a (more.map .op ++ rest)) :=
  exec_lines (s' := withLines s' w a (.op o :: rest)) (.op h.inCommand)

/-- A procedure called in the middle of a command. -/
theorem OpsRun.execTimes_lines {ops : List Op} (h : OpsRun n s ops t) :
    execTimes i n (withLines s w a (ops.map .op ++ rest)) = .next (withLines t w a rest) := by
  induction h with
  | nil => rfl
  | cons he _ ih =>
    rw [List.map_cons, List.cons_append, execTimes_succ (exec_lines_op he), ← List.append_assoc, ← List.map_append]
    exact ih

/-- A procedure a command begins with, its checks being in the same step as the first line (log 12). -/
theorem OpsRun.execTimes_start {ops : List Op} {o : Op}
    (hs : s.seq = .run { word := w, args := a, todo := [.start] })
    (hp : planOf i s a = (o :: ops).map .op ++ rest) (h : OpsRun n s (o :: ops) t) :
    execTimes i n s = .next (withLines t w a rest) := by
  cases h with
  | cons he htail =>
    have hlines := htail.execTimes_lines (i := i) (w := w) (a := a) (rest := rest)
    rw [List.map_append, List.append_assoc] at hlines
    rw [execTimes_succ (exec_start_done hs hp (SeqLine.run_done_iff.2 (.op he)))]
    exact hlines

/-- A run goes on with a procedure of the command. -/
theorem OpsRun.execTimes_extend {u : State} {m : Nat} {ops : List Op} (h : OpsRun n s ops t)
    (hrun : execTimes i m u = .next (withLines s w a (ops.map .op ++ rest))) :
    execTimes i (m + n) u = .next (withLines t w a rest) := by
  rw [execTimes_add hrun n, h.execTimes_lines]

/-- The return at the end of a command that holds no lock (60 R320). -/
theorem execTimes_lines_ret {u : State} {v0 v1 : Word} (hrun : execTimes i n u = .next (withLines s w a [.ret v0 v1]))
    (hfree : s.dvfsLock = .free) : execTimes i (n + 1) u = .next (ended s v0 v1) := by
  rw [execTimes_add hrun 1]
  exact execTimes_ret rfl hfree

/-- The return of the current working point, with no lock held (43 R196). -/
theorem execTimes_lines_retCurrWp {u : State} {x : Table}
    (hrun : execTimes i n u = .next (withLines s w a [.retCurrWp])) (hx : s.table = some x)
    (hfree : s.dvfsLock = .free) : execTimes i (n + 1) u = .next (ended s (BitVec.ofNat 32 x.currWp) 0) := by
  have hend := exec_line_ended (i := i) (s := withLines s w a [.retCurrWp]) rfl (by simp)
    (SeqLine.run_over_iff.2 (.retCurrWp hx))
  rw [finish_of_free (s := withLines s w a [.retCurrWp]) hfree] at hend
  exact execTimes_snoc hrun hend

end Lines

/-! ### The procedures -/

section Procedures
variable {s : State} {t : Table} {q : Quad} {vals : List Word} {w : Nat}

/-- A get and a set of one channel (43 R199). -/
theorem channel_run (hp : s.env.pmicStalled = false) (ht : s.table = some t) (hv : t.wp[w]? = some vals)
    (ch : PmicChannel) :
    OpsRun 2 s [.pmicGet ch w]
      { s with env := s.env.setPmic ch (pmicMerge s.params.pmicMergeFn ch (s.env.pmic ch) vals) } :=
  .cons (.pmicGet hp) (.single (.pmicSet hp ht hv))

/-- apply_voltage: the primary channel, and with two switchers the secondary (43 R199). -/
theorem voltage_run (hp : s.env.pmicStalled = false) (ht : s.table = some t) (hv : t.wp[w]? = some vals) :
    OpsRun (voltageSteps s.params) s (voltageOps s.params w) { s with env := voltageDone s.params s.env vals } := by
  have hprimary := channel_run hp ht hv .primary
  unfold voltageSteps voltageOps voltageDone
  cases s.params.dualSwitcher with
  | false => exact hprimary
  | true => exact hprimary.append (channel_run (by exact hp) (by exact ht) hv .secondary)

/-- update_thresholds writes DCVR0 to DCVR3 from the cell (43 R198). -/
theorem thresholds_run {x : Option Nat} (ht : s.table = some t)
    (hq : tableCell t s.currentFreqIndex (x.getD t.currWp) = some q) :
    OpsRun 4 s [.thresholds x] { s with dcvr := q } :=
  .cons (.thresholds ht hq) (.cons .write (.cons .write (.single .write)))

/-- log_insert adds the entry of the current working point (46 R300, R301). -/
theorem logInsert_run (hl : s.logMutex = .free) (ht : s.table = some t) (hv : t.wp[t.currWp]? = some vals) :
    OpsRun 1 s [.logInsert] { s with log := logPush s.params.logCapacity s.log (entryOf s t.currWp vals) } :=
  .single (.logInsert hl (by simp only [State.logEntry, ht, hv]; rfl))

/-- apply_voltage leaves the time that log entries are stamped with (46 R301). -/
@[simp] theorem voltageDone_now (p : Params) (e : Env) (vals : List Word) : (voltageDone p e vals).now = e.now := by
  unfold voltageDone
  cases p.dualSwitcher <;> rfl

/-- The end of set_wp: the current working point's voltage and log entry (43 R195). -/
theorem voltageLog_run (hp : s.env.pmicStalled = false) (hl : s.logMutex = .free) (ht : s.table = some t)
    (hv : t.wp[t.currWp]? = some vals) :
    OpsRun (voltageSteps s.params + 1) s (voltageOps s.params t.currWp ++ [.logInsert])
      { s with env := voltageDone s.params s.env vals
               log := logPush s.params.logCapacity s.log (entryOf s t.currWp vals) } := by
  have hlog := logInsert_run (s := { s with env := voltageDone s.params s.env vals }) hl ht hv
  rw [show entryOf { s with env := voltageDone s.params s.env vals } t.currWp vals = entryOf s t.currWp vals by
    simp [entryOf]] at hlog
  exact (voltage_run hp ht hv).append hlog

/-- set_wp: without SDMA the point and its thresholds, with SDMA the point alone, then the voltage and the log entry
(43 R192 to R195). -/
theorem setWp_run {g : WpTarget} (hready : SetWpReady s t (clampWp t g) q vals) :
    OpsRun (setWpSteps s.params) s [.setWp g] (setWpDone s t (clampWp t g) q vals) := by
  obtain ⟨ht, hv, hcell, -, hmutex, hp⟩ := hready
  have hlog (u : State) (hu : u.table = some { t with currWp := clampWp t g }) (hpu : u.env.pmicStalled = false)
      (hmu : u.logMutex = .free) := voltageLog_run hpu hmu hu hv
  unfold setWpSteps setWpDone
  cases hS : s.params.hasSdma with
  | true =>
    have hpoint : OpsRun 1 { s with prevWp := t.currWp } [.setCurrWp (clampWp t g)]
        { s with prevWp := t.currWp, table := some { t with currWp := clampWp t g } } := .single (.setCurrWp ht)
    have hrun := OpsRun.call (.setWpSdma ht hS) (hpoint.append (hlog _ rfl hp hmutex))
    rwa [show 1 + (voltageSteps s.params + 1) + 1 = 2 + voltageSteps s.params + 1 by omega] at hrun
  | false =>
    have hpoint := thresholds_run (s := { s with table := some { t with currWp := clampWp t g } })
      (x := some (clampWp t g)) rfl (hcell hS)
    have hrun := OpsRun.call (.setWpPlain ht hS) (hpoint.append (hlog _ rfl hp hmutex))
    rwa [show 4 + (voltageSteps s.params + 1) + 1 = 5 + voltageSteps s.params + 1 by omega] at hrun

end Procedures

end Sys2Proof.Machine
end

section
/-! SUPPORT. Masked writes of DPTCCR by SEQ and RX (10_state R32, R33, R35): what `modify` makes of its fields. -/

namespace Sys2Proof.Machine

/-- Where a mask reads 0, so does every part of it. -/
theorem and_eq_zero_of_subset {v x y : Word} (h : v &&& x = 0) (hxy : x &&& y = y) : v &&& y = 0 := by
  rw [← hxy, ← BitVec.and_assoc, h]
  simp

/-- A masked write leaves the bits outside its mask. -/
theorem merge_and_kept {d m x : Word} (v : Word) (h : m &&& x = 0) : merge d m v &&& x = d &&& x := by
  have hx : ~~~m &&& x = x := by
    calc ~~~m &&& x = (m &&& x) ||| (~~~m &&& x) := by simp [h]
      _ = x := by rw [← BitVec.and_or_distrib_right, BitVec.or_not_self, BitVec.allOnes_and]
  rw [merge, BitVec.and_or_distrib_right, BitVec.and_assoc, BitVec.and_assoc, hx, h]
  simp

/-- CAUSE 0, as a mask. -/
theorem and_cause_of_none {d : Word} (h : dptcCause d = 0) : d &&& 0xC = 0 := by
  have h2 : d[2] = false := by simpa [dptcCause] using congrArg (·.getLsbD 0) h
  have h3 : d[3] = false := by simpa [dptcCause] using congrArg (·.getLsbD 1) h
  ext i hi
  interval_cases i <;> simp [h2, h3]

/-- A written word that keeps to the bits that exist and leaves VOLT_VALID is stored but for CAUSE (10_state R32,
R33). -/
theorem dptccrWrite_eq {p : Params} {old v : Word} (hv : v &&& ~~~(dptccrMask p) = 0)
    (hvolt : v &&& 0x100 = old &&& 0x100) :
    dptccrWrite p old v = (v &&& ~~~0xC) ||| if bit v 0 then old &&& 0xC else 0 := by
  have hself : v &&& dptccrMask p = v := and_eq_self_of_reserved hv
  unfold dptccrWrite
  unfold dptccrMask at hself
  cases hS : p.hasSdma with
  | true =>
    rw [hS, if_pos rfl] at hself
    have hfields : v &&& ~~~0xC = (v &&& 0xF3) ||| (v &&& 0x100) := by
      rw [← BitVec.and_or_distrib_left, ← hself, BitVec.and_assoc, BitVec.and_assoc]
      rfl
    rw [if_pos rfl, BitVec.and_or_distrib_right, ← hvolt, BitVec.or_self, hfields, BitVec.or_assoc, BitVec.or_assoc,
      BitVec.or_comm (v &&& 0x100)]
  | false =>
    rw [hS, if_neg Bool.false_ne_true] at hself
    have hfields : v &&& ~~~0xC = v &&& 0xF3 := by
      rw [← hself, BitVec.and_assoc, BitVec.and_assoc]
      rfl
    rw [if_neg Bool.false_ne_true, hfields]
    exact BitVec.or_zero

/-- A mask of stored fields holds no reserved bit (10_state R32). -/
theorem and_reserved_of_fields (p : Params) {m : Word} (hm : m &&& ~~~0xF3 = 0) : m &&& ~~~(dptccrMask p) = 0 := by
  refine and_eq_zero_of_subset hm ?_
  unfold dptccrMask
  split <;> rfl

section Modify
variable {s : State} {m v : Word}

/-- A masked write of DPTC_EN, DPTC_MASK or RCEN (10_state R32, R33). -/
theorem modifyDptccr_eq (hd : s.dptccr &&& ~~~(dptccrMask s.params) = 0) (hm : m &&& ~~~0xF3 = 0) :
    s.modifyCsr .dptccr m v = { s with
      dptccr := (merge s.dptccr m v &&& ~~~0xC) ||| if bit (merge s.dptccr m v) 0 then s.dptccr &&& 0xC else 0 } := by
  have hreserved := merge_reserved v hd (and_reserved_of_fields s.params hm)
  have hvolt := merge_and_kept (d := s.dptccr) (x := 0x100) v (and_eq_zero_of_subset hm (by decide))
  exact congrArg (fun x => { s with dptccr := x }) (dptccrWrite_eq hreserved hvolt)

/-- Where it leaves the block enabled, or no cause is shown, the written word is stored (10_state R33). -/
theorem modifyDptccr_stored (hd : s.dptccr &&& ~~~(dptccrMask s.params) = 0) (hm : m &&& ~~~0xF3 = 0)
    (hcause : bit (merge s.dptccr m v) 0 = true ∨ s.dptccr &&& 0xC = 0) :
    s.modifyCsr .dptccr m v = { s with dptccr := merge s.dptccr m v } := by
  rw [modifyDptccr_eq hd hm]
  have hkept : merge s.dptccr m v &&& 0xC = s.dptccr &&& 0xC :=
    merge_and_kept v (and_eq_zero_of_subset hm (by decide))
  refine congrArg (fun x => { s with dptccr := x }) ?_
  have hsplit : (merge s.dptccr m v &&& ~~~0xC) ||| (s.dptccr &&& 0xC) = merge s.dptccr m v := by
    rw [← hkept, ← BitVec.and_or_distrib_left, BitVec.or_comm, BitVec.or_not_self, BitVec.and_allOnes]
  obtain hen | hnone := hcause
  · rw [if_pos hen, hsplit]
  · rw [hnone, ite_self]
    rwa [hnone] at hsplit

/-- Disabling the block clears CAUSE (10_state R33). -/
theorem modifyDptccr_disable (hd : s.dptccr &&& ~~~(dptccrMask s.params) = 0) :
    s.modifyCsr .dptccr 0x1 0 = { s with dptccr := s.dptccr &&& ~~~0xD } := by
  have hoff : bit (s.dptccr &&& ~~~0x1) 0 = false := by simp [bit]
  rw [modifyDptccr_eq hd (by decide), merge_zeros, hoff, if_neg Bool.false_ne_true, BitVec.and_assoc]
  exact congrArg (fun x => { s with dptccr := x }) BitVec.or_zero

/-- A line that writes fields of DPTCCR so (20_memory R80). -/
theorem modifyDptccr_run (hl : s.regLock = .free) (hd : s.dptccr &&& ~~~(dptccrMask s.params) = 0)
    (hm : m &&& ~~~0xF3 = 0) (hcause : bit (merge s.dptccr m v) 0 = true ∨ s.dptccr &&& 0xC = 0) :
    OpsRun 1 s [.modify .dptccr m v] { s with dptccr := merge s.dptccr m v } := by
  have heffect := OpEffect.modify (r := .dptccr) (m := m) (v := v) hl
  rw [modifyDptccr_stored hd hm hcause] at heffect
  exact .single heffect

end Modify

end Sys2Proof.Machine
end

section
/-! SUPPORT. The DPTC commands (43 R190 to R203): the start of the engine, its stop, the working point command, the
commands that set one variable, and the checks. -/

namespace Sys2Proof.Machine

/-! ### The registers of the block -/

/-- `S.rc_state` in the place of RCEN (43 R190). -/
def rcField (rc : BitVec 4) : Word := rc.setWidth 32 <<< 4

/-- It stays within RCEN (10_state R32). -/
theorem rcField_and (rc : BitVec 4) : rcField rc &&& 0xF0 = rcField rc := by
  unfold rcField
  ext i hi
  interval_cases i <;> simp

section Block
variable {s : State}

/-- The two lines that disable and mask the block (43 R191). -/
theorem stopBlock_run (hl : s.regLock = .free) (hd : s.dptccr &&& ~~~(dptccrMask s.params) = 0) :
    OpsRun 2 s [.modify .dptccr 0x1 0, .modify .dptccr 0x2 0x2]
      { s with dptccr := (s.dptccr &&& ~~~0xF) ||| 0x2 } := by
  have hdisable := OpEffect.modify (r := .dptccr) (m := 0x1) (v := 0) hl
  rw [modifyDptccr_disable hd] at hdisable
  have hnone : s.dptccr &&& ~~~0xD &&& 0xC = 0 := (BitVec.and_assoc ..).trans BitVec.and_zero
  have hmask := modifyDptccr_run (s := { s with dptccr := s.dptccr &&& ~~~0xD }) (m := 0x2) (v := 0x2) hl
    (and_reserved hd _) (by decide) (.inr hnone)
  have hword : merge (s.dptccr &&& ~~~0xD) 0x2 0x2 = (s.dptccr &&& ~~~0xF) ||| 0x2 := by
    rw [merge, BitVec.and_assoc]
    rfl
  rw [hword] at hmask
  exact .cons hdisable hmask

/-- RCEN takes `S.rc_state` (43 R190); CAUSE is kept, or is 0 where the block is disabled (10_state R33). -/
theorem rcEnable_run (hl : s.regLock = .free) (hd : s.dptccr &&& ~~~(dptccrMask s.params) = 0)
    (hnone : dptcEn s.dptccr = false → dptcCause s.dptccr = 0) :
    OpsRun 1 s [.rcEnable] { s with dptccr := (s.dptccr &&& ~~~0xF0) ||| rcField s.rcState } := by
  have hcause : bit (merge s.dptccr 0xF0 (rcField s.rcState)) 0 = true ∨ s.dptccr &&& 0xC = 0 := by
    cases hen : dptcEn s.dptccr with
    | true => exact .inl (by simpa [merge, bit, dptcEn] using hen)
    | false => exact .inr (and_cause_of_none (hnone hen))
  have heffect : OpEffect s .rcEnable (s.modifyCsr .dptccr 0xF0 (rcField s.rcState)) [] := .rcEnable hl
  rw [modifyDptccr_stored hd (by decide) hcause, merge, rcField_and] at heffect
  exact .single heffect

/-- The two lines that enable and unmask the block (43 R190). -/
theorem startBlock_run (hl : s.regLock = .free) (hd : s.dptccr &&& ~~~(dptccrMask s.params) = 0) :
    OpsRun 2 s [.modify .dptccr 0x1 0x1, .modify .dptccr 0x2 0] { s with dptccr := (s.dptccr &&& ~~~0x3) ||| 0x1 } := by
  have henable := modifyDptccr_run (m := 0x1) (v := 0x1) hl hd (by decide) (.inl (by simp [merge, bit]))
  have hunmask := modifyDptccr_run (s := { s with dptccr := merge s.dptccr 0x1 0x1 }) (m := 0x2) (v := 0) hl
    (merge_reserved _ hd (and_reserved_of_fields _ (by decide))) (by decide) (.inl (by simp [merge, bit]))
  have hword : merge (merge s.dptccr 0x1 0x1) 0x2 0 = (s.dptccr &&& ~~~0x3) ||| 0x1 := merge_kept_or ..
  rw [hword] at hunmask
  exact henable.append hunmask

end Block

/-! ### DPTC_ENABLE -/

section Enable
variable {s : State} {w : Word} {a : Args} {t : Table} {vals : List Word} {hz : Nat} {q : Quad}

/-- The lines of DPTC_ENABLE, cut into its procedures (43 R190). -/
theorem dptcStartLines_eq (p : Params) (x : Nat) :
    dptcStartLines p x = (voltageOps p x).map .op ++ .readClock .freqIndex ::
      ([Op.thresholds none, .rcEnable, .logInsert].map SeqLine.op ++ .assign (.dptcActive true) ::
        ([Op.modify .dptccr 0x1 0x1, .modify .dptccr 0x2 0].map SeqLine.op ++ [.ret 0 0])) := rfl

/-- The bits of DPTCCR that DPTC_ENABLE leaves (43 R190). -/
theorem started_dptccr (d : Word) (rc : BitVec 4) :
    ((d &&& ~~~0xF0) ||| rcField rc) &&& ~~~0x3 ||| 0x1 = (d &&& ~~~0xF3) ||| rcField rc ||| 0x1 := by
  have hrc : rcField rc &&& ~~~0x3 = rcField rc := by
    rw [← rcField_and, BitVec.and_assoc]
    rfl
  rw [BitVec.and_or_distrib_right, BitVec.and_assoc, hrc]
  rfl

/-- With RCEN in, DPTCCR keeps to the bits that exist (10_state R32). -/
theorem started_dptccr_reserved (hd : s.dptccr &&& ~~~(dptccrMask s.params) = 0) :
    ((s.dptccr &&& ~~~0xF0) ||| rcField s.rcState) &&& ~~~(dptccrMask s.params) = 0 := by
  have hfield : rcField s.rcState &&& ~~~0xF3 = 0 := by
    rw [← rcField_and, BitVec.and_assoc]
    exact BitVec.and_zero
  exact or_reserved (and_reserved hd _) (and_reserved_of_fields _ hfield)

/-- The clock read calls the index line with CLOCK_MODEL's CPU frequency (43 R190). -/
theorem readClock_calls_freqIndex (hl : s.regLock = .free)
    (hclock : cpuHz s.params (s.pllsr.getLsbD 3) (if s.pllsr.getLsbD 3 then s.tpll else s.mpll) s.div = .ok hz) :
    SeqEffect s a (.readClock .freqIndex) s [.assign (.freqIndexOf hz)] := by
  have heffect := SeqEffect.readClock (a := a) (k := .freqIndex) hl
  rwa [readCsr_activePll, pllsrCurPll, bit, ClockUse.resume, hclock] at heffect

/-- The thresholds of the current point, RCEN and the log entry (43 R190, R198; 46 R300). -/
theorem thresholdsRcLog_run (hl : s.regLock = .free) (hmutex : s.logMutex = .free)
    (hd : s.dptccr &&& ~~~(dptccrMask s.params) = 0) (hnone : dptcEn s.dptccr = false → dptcCause s.dptccr = 0)
    (ht : s.table = some t) (hv : t.wp[t.currWp]? = some vals)
    (hcell : tableCell t s.currentFreqIndex t.currWp = some q) :
    OpsRun 6 s [.thresholds none, .rcEnable, .logInsert]
      { s with dcvr := q
               dptccr := (s.dptccr &&& ~~~0xF0) ||| rcField s.rcState
               log := logPush s.params.logCapacity s.log (entryOf s t.currWp vals) } :=
  (thresholds_run (x := none) ht hcell).append ((rcEnable_run (s := { s with dcvr := q }) hl hd hnone).append
    (logInsert_run (s := { s with dcvr := q, dptccr := _ }) hmutex ht hv))

/-- `s` with what DPTC_ENABLE writes: regulator, frequency index, thresholds, DPTCCR, log and flag (43 R190). -/
def withEngine (s : State) (e : Env) (f : Nat) (q : Quad) (d : Word) (l : LogRing) (active : Bool) : State :=
  { s with env := e, currentFreqIndex := f, dcvr := q, dptccr := d, log := l, dptcActive := active }

end Enable

/-- Settles O35: apply_voltage, the clock read and the index line, then thresholds, RCEN and the log entry, the flag,
the two writes that start the block, and the return. -/
theorem dptcEnableStartsTheEngine : Obligations.DptcEnableStartsTheEngine := by
  rintro s a t vals hz q ⟨w, hs⟩ ⟨hl, hfree, hmutex, -⟩ hregs hsus hp ht hact hv hclock hidx hcell
  obtain ⟨-, -, -, -, -, -, hd, -, -, -, hnone⟩ := hregs
  have hplan : planOf .dptcEnable s a = dptcStartLines s.params t.currWp := by
    simp [planOf, dptcEnablePlan, hsus, ht, hact]
  set e := voltageDone s.params s.env vals with he
  set f := freqIndexBy s.params.freqIndexFn hz t
  set d := (s.dptccr &&& ~~~0xF0) ||| rcField s.rcState
  set l := logPush s.params.logCapacity s.log (entryOf { s with currentFreqIndex := f } t.currWp vals) with hlog
  have hvoltage := (voltage_run hp ht hv).execTimes_start hs (hplan.trans (dptcStartLines_eq ..))
  have hread := execTimes_snoc hvoltage (exec_lines (readClock_calls_freqIndex hl hclock))
  have hindex := execTimes_snoc hread (exec_lines (.freqIndexOf ht hidx))
  have hengine : OpsRun 6 (withEngine s e f s.dcvr s.dptccr s.log s.dptcActive)
      [.thresholds none, .rcEnable, .logInsert] (withEngine s e f q d l s.dptcActive) := by
    have hentry : entryOf { s with currentFreqIndex := f } t.currWp vals =
        entryOf (withEngine s e f s.dcvr s.dptccr s.log s.dptcActive) t.currWp vals := by
      simp [entryOf, withEngine, he]
    rw [hlog, hentry]
    exact thresholdsRcLog_run hl hmutex hd hnone ht hv hcell
  have hflag := execTimes_snoc (hengine.execTimes_extend hindex) (exec_lines .dptcActive)
  have hstart : OpsRun 2 (withEngine s e f q d l true) [.modify .dptccr 0x1 0x1, .modify .dptccr 0x2 0]
      (withEngine s e f q ((s.dptccr &&& ~~~0xF3) ||| rcField s.rcState ||| 0x1) l true) := by
    rw [← started_dptccr]
    exact startBlock_run hl (started_dptccr_reserved hd)
  have hsteps : (if s.params.dualSwitcher then 16 else 14) = voltageSteps s.params + 1 + 1 + 6 + 1 + 2 + 1 := by
    unfold voltageSteps
    split <;> rfl
  rw [hsteps]
  exact execTimes_lines_ret (hstart.execTimes_extend hflag) hfree

/-! ### DPTC_DISABLE and DPTC_SET_WP -/

/-- Settles O36: the block is stopped, then set_wp to point 0, the flag and the return. -/
theorem dptcDisableStopsTheEngineAtPointZero : Obligations.DptcDisableStopsTheEngineAtPointZero := by
  rintro s a t q vals ⟨w, hs⟩ ⟨hl, hfree, -, -⟩ ⟨-, -, -, -, -, -, hd, -, -, -, -⟩ hsus hact hready
  have hplan : planOf .dptcDisable s a = [Op.modify .dptccr 0x1 0, .modify .dptccr 0x2 0x2, .setWp (.abs 0)].map .op ++
      [.assign (.dptcActive false), .ret 0 0] := by
    simp [planOf, dptcDisablePlan, hsus, hact]
  have hclamp : clampWp t (.abs 0) = 0 := by simp only [clampWp, clamp]; omega
  rw [← hclamp] at hready ⊢
  have hstop := (stopBlock_run hl hd).append (setWp_run (g := .abs 0)
    (s := { s with dptccr := (s.dptccr &&& ~~~0xF) ||| 0x2 }) hready)
  have hlines := hstop.execTimes_start hs hplan
  have hflag := execTimes_snoc hlines (exec_lines .dptcActive)
  have hret := execTimes_lines_ret hflag hfree
  rw [show setWpSteps s.params + 4 = 2 + setWpSteps s.params + 1 + 1 by omega]
  exact hret

/-- Settles O37: set_wp to the clamped point, which the return reads back. -/
theorem dptcSetWpSetsTheClampedPoint : Obligations.DptcSetWpSetsTheClampedPoint := by
  rintro s a t q vals ⟨w, hs⟩ ⟨hl, hfree, -, -⟩ hsus hact hready
  have hplan : planOf .dptcSetWp s a = [Op.setWp (.abs (s32 a.a0))].map .op ++ [.retCurrWp] := by
    simp [planOf, dptcSetWpPlan, hsus, hact, State.tableValid, hready.1]
  have hclamp : clampWp t (.abs (s32 a.a0)) = min a.a0.toInt.toNat (t.wpNum - 1) := by
    simp only [clampWp, clamp, s32]
    omega
  rw [← hclamp] at hready ⊢
  have hset := (setWp_run hready).execTimes_start hs hplan
  exact execTimes_lines_retCurrWp hset rfl hfree

/-! ### The commands that set one variable -/

/-- A command that assigns one variable and returns (43 R197, R200, R201). -/
theorem assign_run {s s' : State} {w : Word} {a : Args} {i : Instr} {x : Assign}
    (hs : s.seq = .run { word := w, args := a, todo := [.start] })
    (hp : planOf i s a = [.assign x, .ret 0 0]) (hx : SeqEffect s a (.assign x) s' []) (hfree : s'.dvfsLock = .free) :
    execTimes i 2 s = .next (ended s' 0 0) := by
  rw [execTimes_succ (exec_start_done hs hp (SeqLine.run_done_iff.2 hx))]
  exact execTimes_ret rfl hfree

/-- Settles O38: each plan is one assignment and the return. -/
theorem settingCommandsWriteOneVariable : Obligations.SettingCommandsWriteOneVariable := by
  rintro s a ⟨w, hs⟩ ⟨-, hfree, -, -⟩ hsus hact
  refine ⟨fun t ht hidx hdvfs => ?_, fun hmask => ⟨?_, ?_⟩⟩
  · have hinactive : (s.dvfsActive && !s.params.dvfsPredictive) = false := by
      obtain h | h := hdvfs <;> simp [h]
    have hplan : planOf .setFreqIndex s a = [.assign (.freqIndex a.a0.toNat), .ret 0 0] := by
      simp [planOf, setFreqIndexPlan, hsus, ht, hact, hinactive, u32, hidx]
    exact assign_run hs hplan .freqIndex hfree
  · have hplan : planOf .dptcEnableRc s a = [.assign (.rcOr (a.a0.setWidth 4)), .ret 0 0] := by
      simp [planOf, dptcEnableRcPlan, hsus, hact, u32, hmask]
    exact assign_run hs hplan .rcOr hfree
  · have hplan : planOf .dptcDisableRc s a = [.assign (.rcAndNot (a.a0.setWidth 4)), .ret 0 0] := by
      simp [planOf, dptcDisableRcPlan, hsus, hact, u32, hmask]
    exact assign_run hs hplan .rcAndNot hfree

/-! ### The checks -/

/-- Settles O39: a failed check makes the plan its raise. -/
theorem dptcCommandsCheckInOrder : Obligations.DptcCommandsCheckInOrder := by
  rintro s a ⟨w, hs⟩ hu hsus
  refine ⟨fun ht => ⟨?_, ?_, ?_⟩, fun t ht => ⟨fun hact => ⟨?_, ?_⟩, fun hidx => ?_, fun hidx hbusy => ?_⟩,
    fun hact => ?_, fun hmask => ⟨?_, ?_⟩, fun hmask hact => ⟨?_, ?_⟩⟩
  · exact exec_refuse hs hu (e := .noTable) (by simp [planOf, dptcEnablePlan, hsus, ht])
  · exact exec_refuse hs hu (e := .noTable) (by simp [planOf, dptcSetWpPlan, State.tableValid, hsus, ht])
  · exact exec_refuse hs hu (e := .noTable) (by simp [planOf, setFreqIndexPlan, hsus, ht])
  · exact exec_refuse hs hu (e := .alreadyActive) (by simp [planOf, dptcEnablePlan, hsus, ht, hact])
  · exact exec_refuse hs hu (e := .notWhileActive) (by simp [planOf, dptcSetWpPlan, State.tableValid, hsus, ht, hact])
  · exact exec_refuse hs hu (e := .invalidIndex) (by simp [planOf, setFreqIndexPlan, hsus, ht, u32, hidx])
  · have hplan : planOf .setFreqIndex s a = [.raise .notWhileActive] := by
      obtain hact | ⟨hdvfs, hpred⟩ := hbusy
      · simp [planOf, setFreqIndexPlan, hsus, ht, u32, hidx, hact]
      · simp [planOf, setFreqIndexPlan, hsus, ht, u32, hidx, hdvfs, hpred]
    exact exec_refuse hs hu hplan
  · exact exec_refuse hs hu (e := .alreadyInactive) (by simp [planOf, dptcDisablePlan, hsus, hact])
  · exact exec_refuse hs hu (e := .invalidMask) (by simp [planOf, dptcEnableRcPlan, hsus, u32, hmask])
  · exact exec_refuse hs hu (e := .invalidMask) (by simp [planOf, dptcDisableRcPlan, hsus, u32, hmask])
  · exact exec_refuse hs hu (e := .invalidState) (by simp [planOf, dptcEnableRcPlan, hsus, u32, not_lt.2 hmask, hact])
  · exact exec_refuse hs hu (e := .invalidState) (by simp [planOf, dptcDisableRcPlan, hsus, u32, not_lt.2 hmask, hact])

end Sys2Proof.Machine
end

section
/-! SUPPORT. The DPTC interrupt (44 R230 to R234, R240; 60 R335): the word its handler writes, whose turns it is taken
at, and which turns do nothing. -/

namespace Sys2Proof.Machine

/-! ### The handler -/

/-- The handler's write disables and masks the block, which clears CAUSE, and leaves the rest (10_state R33, 44
R231). -/
theorem dptccrWrite_irqDptccr {p : Params} {w : Word} (hw : w &&& ~~~(dptccrMask p) = 0) :
    dptccrWrite p w (irqDptccr w) = (w &&& ~~~0xF) ||| 0x2 := by
  have hreserved : irqDptccr w &&& ~~~(dptccrMask p) = 0 :=
    and_reserved (or_reserved hw (and_reserved_of_fields p (by decide))) _
  have hvolt : irqDptccr w &&& 0x100 = w &&& 0x100 := by
    rw [irqDptccr, BitVec.and_assoc, BitVec.and_or_distrib_right]
    exact BitVec.or_zero
  have hoff : bit (irqDptccr w) 0 = false := by simp [bit, irqDptccr]
  calc dptccrWrite p w (irqDptccr w)
      = irqDptccr w &&& ~~~0xC := by
        rw [dptccrWrite_eq hreserved hvolt, hoff, if_neg Bool.false_ne_true]
        exact BitVec.or_zero
    _ = (w &&& ~~~0xD) ||| 0x2 := by
        rw [irqDptccr, BitVec.and_assoc, BitVec.and_or_distrib_right]
        rfl
    _ = (w &&& ~~~0xF) ||| 0x2 := by
        rw [← merge_ones, merge, BitVec.and_assoc]
        rfl

/-- An asserted line shows a cause (10_state R34). -/
theorem dptcCause_ne_zero_of_irqLine {w : Word} (h : irqLine w = true) : dptcCause w ≠ 0 := by
  simp only [irqLine, Bool.and_eq_true, bne_iff_ne] at h
  exact h.2

/-- `s` after the handler: the block masked and disabled, and the cause posted (44 R231, R240). -/
def withPosted (s : State) : State :=
  { s with dptccr := (s.dptccr &&& ~~~0xF) ||| 0x2, mbCause := s.dptccr.extractLsb' 2 2, mbPending := true }

/-- The handler at an asserted line (44 R231, R233, R240). -/
theorem irqHandler_of_irqLine {s : State} (hd : s.dptccr &&& ~~~(dptccrMask s.params) = 0)
    (hline : irqLine s.dptccr = true) : s.irqHandler = withPosted s := by
  rw [State.irqHandler, if_neg (dptcCause_ne_zero_of_irqLine hline), dptccrWrite_irqDptccr hd]
  rfl

/-- The line is down after the handler (44 R233). -/
theorem irqLine_withPosted (s : State) : irqLine (withPosted s).dptccr = false := irqLine_or_mask _

/-! ### The turns -/

section Turns
variable {s : State} {rest : List Input}

/-- IRQ is enabled where the line is asserted and interrupts are on (44 R230). -/
theorem irqEnabled_iff : s.irqEnabled = true ↔ irqLine s.dptccr = true ∧ s.irqOff = false := by
  simp [State.irqEnabled]

/-- Interrupts that are disabled keep IRQ from being enabled (44 R230). -/
theorem irqEnabled_of_irqOff (h : s.irqOff = true) : s.irqEnabled = false := by
  rw [State.irqEnabled, h, Bool.not_true, Bool.and_false]

/-- A line that is down keeps IRQ from being enabled (44 R230). -/
theorem irqEnabled_of_irqLine (h : irqLine s.dptccr = false) : s.irqEnabled = false := by
  rw [State.irqEnabled, h, Bool.false_and]

/-- An enabled IRQ comes before the next turn of SEQ or RX, which stays to come (60 R335; log 28). -/
theorem step_irq_before_turn (hirq : s.irqEnabled = true)
    (h : s.env.inputs = [] ∨ s.env.inputs = .seq :: rest ∨ s.env.inputs = .rx :: rest) :
    step s = .next s.irqHandler := by
  obtain h | h | h := h
  · simp [step, stepAny, h, stepDefault, hirq]
  · simp [step_input h, stepInput, hirq]
  · simp [step_input h, stepInput, hirq]

/-- An enabled IRQ is taken at its own turn (44 R230). -/
theorem step_irq (hirq : s.irqEnabled = true) (h : s.env.inputs = .irq :: rest) :
    step s = .next (withInputs s rest).irqHandler := by
  simp [step_input h, stepInput, hirq, withInputs]

/-- IRQ's turn changes nothing where it is not enabled (44 R230; log 6). -/
theorem step_irq_idle (hirq : s.irqEnabled = false) (h : s.env.inputs = .irq :: rest) :
    step s = .next (withInputs s rest) := by
  simp [step_input h, stepInput, hirq, noStep, withInputs]

/-- A turn of RX that no interrupt comes before. -/
theorem step_rx (hirq : s.irqEnabled = false) (h : s.env.inputs = .rx :: rest) :
    step s = stepRx (withInputs s rest) := by
  simp [step_input h, stepInput, hirq, withInputs]

/-- RX takes no step while interrupts are disabled (44 R234). -/
theorem stepRx_of_irqOff (h : s.irqOff = true) : stepRx s = .next s := by
  rw [stepRx, if_pos h]
  rfl

end Turns

/-- Settles O41: an enabled IRQ's step is the handler, and a turn of IRQ or RX that may not step does nothing. -/
theorem irqMasksDisablesAndPostsTheCause : Obligations.IrqMasksDisablesAndPostsTheCause := by
  refine ⟨fun s rest hregs hline hon hin => ?_, fun s rest hregs hline hon hin => ?_, fun s rest hline hin => ?_,
    fun s rest hoff hin => ?_⟩
  · obtain ⟨-, -, -, -, -, -, hd, -⟩ := hregs
    refine ⟨withPosted s, ?_, irqLine_withPosted s, rfl⟩
    rw [step_irq_before_turn (irqEnabled_iff.2 ⟨hline, hon⟩) hin, irqHandler_of_irqLine hd hline]
  · obtain ⟨-, -, -, -, -, -, hd, -⟩ := hregs
    refine ⟨withPosted (withInputs s rest), ?_, irqLine_withPosted _, rfl⟩
    rw [step_irq (irqEnabled_iff.2 ⟨hline, hon⟩) hin, irqHandler_of_irqLine (s := withInputs s rest) hd hline]
  · exact step_irq_idle (irqEnabled_of_irqLine hline) hin
  · obtain hin | hin := hin
    · exact step_irq_idle (irqEnabled_of_irqOff hoff) hin
    · rw [step_rx (irqEnabled_of_irqOff hoff) hin, stepRx_of_irqOff (s := withInputs s rest) hoff]

end Sys2Proof.Machine
end

section
/-! SUPPORT. The table text written and read back (45_table_io R250 to R259, R268, R270): the digits of a number, a
text as lines of tokens, the tokens of each line of the serializer, and what a parse comes to. -/

namespace Sys2Proof.Machine

/-! ### The digits of a number -/

section Digits
variable {digit : Byte → Option Nat} {base fuel x : Nat}

/-- The digits of `x` read back as `x` (45 R253, R268). -/
theorem digitsValue_digitsOf (hd : ∀ d < base, digit (digitChar d) = some d) (hb : 2 ≤ base) (hx : x < fuel)
    (rest : List Byte) :
    digitsValue digit base 0 (digitsOf base fuel x rest) = digitsValue digit base x rest := by
  induction fuel generalizing x rest with
  | zero => omega
  | succ fuel ih =>
    unfold digitsOf
    split
    · next hlt => simp [digitsValue, hd x hlt]
    · next hge =>
      have hdiv : x / base < x := Nat.div_lt_self (by omega) (by omega)
      rw [ih (by omega)]
      simp [digitsValue, hd _ (Nat.mod_lt x (by omega)), Nat.div_add_mod']

/-- A number below `base ^ k` has at most `k` digits. -/
theorem length_digitsOf_le {k : Nat} (hk : 1 ≤ k) (hx : x < base ^ k) (rest : List Byte) :
    (digitsOf base fuel x rest).length ≤ k + rest.length := by
  induction fuel generalizing x k rest with
  | zero => simp [digitsOf]
  | succ fuel ih =>
    unfold digitsOf
    split
    · simp only [List.length_cons]; omega
    · next hge =>
      obtain ⟨m, rfl⟩ : ∃ m, k = m + 1 := ⟨k - 1, by omega⟩
      have hm : 1 ≤ m := by
        rcases Nat.eq_zero_or_pos m with rfl | h
        · simp at hx; omega
        · exact h
      have hdiv : x / base < base ^ m := by
        rw [Nat.pow_succ] at hx
        exact Nat.div_lt_of_lt_mul (by rwa [Nat.mul_comm])
      have hlen := ih hm hdiv (digitChar (x % base) :: rest)
      simp only [List.length_cons] at hlen
      omega

/-- There is a digit at least. -/
theorem length_digitsOf_gt (hf : 0 < fuel) (rest : List Byte) :
    rest.length < (digitsOf base fuel x rest).length := by
  induction fuel generalizing x rest with
  | zero => omega
  | succ fuel ih =>
    unfold digitsOf
    split
    · simp
    · cases fuel with
      | zero => simp [digitsOf]
      | succ fuel => exact Nat.lt_of_succ_lt (ih (Nat.succ_pos _) (_ :: rest))

/-- Whatever holds of the digits' characters holds of the bytes of the number. -/
theorem forall_mem_digitsOf {P : Byte → Prop} (hb : 2 ≤ base) (hd : ∀ d < base, P (digitChar d)) {rest : List Byte}
    (hrest : ∀ b ∈ rest, P b) : ∀ b ∈ digitsOf base fuel x rest, P b := by
  induction fuel generalizing x rest with
  | zero => exact hrest
  | succ fuel ih =>
    unfold digitsOf
    split
    · next hlt => exact List.forall_mem_cons.2 ⟨hd x hlt, hrest⟩
    · exact ih (List.forall_mem_cons.2 ⟨hd _ (Nat.mod_lt x (by omega)), hrest⟩)

end Digits

theorem decDigit_digitChar : ∀ d < 10, decDigit (digitChar d) = some d := by decide

theorem hexDigit_digitChar : ∀ d < 16, hexDigit (digitChar d) = some d := by decide

/-- `dec(x)` reads back as `x` (45 R253, R268). -/
theorem decToken_decText {x : Nat} (h : x ≤ 4294967295) : decToken (decText x) = some x := by
  have hlo : 1 ≤ (decText x).length := length_digitsOf_gt (Nat.succ_pos x) []
  have hhi : (decText x).length ≤ 10 := length_digitsOf_le (by decide) (h.trans_lt (by decide)) []
  have hval : digitsValue decDigit 10 0 (decText x) = some x :=
    digitsValue_digitsOf decDigit_digitChar (by decide) (Nat.lt_succ_self x) []
  simp [decToken, hlo, hhi, hval, h]

theorem decWord_decText (v : Word) : decWord (decText v.toNat) = some v := by
  rw [decWord, decToken_decText (by omega)]
  simp

/-- The token `0x` and the hex digits of a word (45 R268). -/
def hexWord (v : Word) : Token := 0x30 :: 0x78 :: digitsOf 16 (v.toNat + 1) v.toNat []

theorem hexText_eq (v : Word) : hexText v = space :: hexWord v := rfl

/-- The token of a word reads back as the word (45 R253, R268). -/
theorem hexToken_hexWord (v : Word) : hexToken (hexWord v) = some v := by
  have hlo : 1 ≤ (digitsOf 16 (v.toNat + 1) v.toNat []).length := length_digitsOf_gt (Nat.succ_pos _) []
  have hhi : (digitsOf 16 (v.toNat + 1) v.toNat []).length ≤ 8 :=
    length_digitsOf_le (by decide) (v.isLt.trans_eq (by decide)) []
  have hval : digitsValue hexDigit 16 0 (digitsOf 16 (v.toNat + 1) v.toNat []) = some v.toNat :=
    digitsValue_digitsOf hexDigit_digitChar (by decide) (Nat.lt_succ_self _) []
  simp [hexToken, hexWord, hlo, hhi, hval]

/-! ### A text as lines of tokens -/

/-- A byte that neither ends a token or a line nor opens a comment (45 R250 to R252). -/
def isWordByte (b : Byte) : Bool := !isBlankByte b && b != newline && b != hashMark

/-- A token of such bytes. -/
def isWord (t : Token) : Bool := !t.isEmpty && t.all isWordByte

/-- A line of such tokens, one at least. -/
def isWordLine (l : List Token) : Bool := !l.isEmpty && l.all isWord

/-- The text of a line: its tokens, a space before each but the first, and the newline (45 R268). -/
def lineText : List Token → List Byte
  | [] => [newline]
  | k :: ts => k ++ (ts.map (space :: ·)).flatten ++ [newline]

theorem isWord_iff {t : Token} : isWord t = true ↔ t ≠ [] ∧ ∀ b ∈ t, isWordByte b = true := by
  simp [isWord]

theorem isWordLine_cons {k : Token} {ts : List Token} :
    isWordLine (k :: ts) = true ↔ isWord k = true ∧ ∀ t ∈ ts, isWord t = true := by
  simp [isWordLine]

theorem isWordByte_iff {b : Byte} :
    isWordByte b = true ↔ isBlankByte b = false ∧ b ≠ newline ∧ b ≠ hashMark := by
  simp [isWordByte, and_assoc]

/-- A newline ends the line of the bytes before it (45 R250). -/
theorem splitLines_append_newline {l : List Byte} (h : newline ∉ l) (rest : List Byte) :
    splitLines (l ++ newline :: rest) = l :: splitLines rest := by
  induction l with
  | nil => simp [splitLines]
  | cons b l ih =>
    obtain ⟨hb, hl⟩ : newline ≠ b ∧ newline ∉ l := by simpa using h
    simp [splitLines, hb.symm, ih hl]

/-- The bytes of a token are read into the token at hand (45 R252). -/
theorem tokensFrom_append {t : Token} (h : ∀ b ∈ t, isWordByte b = true) (cur : Token) (rest : List Byte) :
    tokensFrom cur (t ++ rest) = tokensFrom (t.reverse ++ cur) rest := by
  induction t generalizing cur with
  | nil => rfl
  | cons b t ih =>
    obtain ⟨hb, ht⟩ := List.forall_mem_cons.1 h
    have hblank := (isWordByte_iff.1 hb).1
    simp [tokensFrom, hblank, ih ht]

/-- A word and words after spaces are the tokens of their text (45 R252). -/
theorem tokens_words {k : Token} {ts : List Token} (hk : isWord k = true) (hts : ∀ t ∈ ts, isWord t = true) :
    tokens (k ++ (ts.map (space :: ·)).flatten) = k :: ts := by
  induction ts generalizing k with
  | nil =>
    obtain ⟨hne, hbytes⟩ := isWord_iff.1 hk
    rw [tokens, tokensFrom_append hbytes]
    simp [tokensFrom, hne]
  | cons t ts ih =>
    obtain ⟨hne, hbytes⟩ := isWord_iff.1 hk
    obtain ⟨ht, hts⟩ := List.forall_mem_cons.1 hts
    have hspace : isBlankByte space = true := rfl
    have hrest : tokensFrom [] (t ++ (ts.map (space :: ·)).flatten) = t :: ts := ih ht hts
    rw [tokens, tokensFrom_append hbytes]
    simp [tokensFrom, hspace, hne, hrest]

/-- No newline stands within a line. -/
theorem newline_notMem_words {k : Token} {ts : List Token} (hk : isWord k = true)
    (hts : ∀ t ∈ ts, isWord t = true) : newline ∉ k ++ (ts.map (space :: ·)).flatten := by
  have hword : ∀ t, isWord t = true → newline ∉ t := fun t ht hmem =>
    (isWordByte_iff.1 ((isWord_iff.1 ht).2 _ hmem)).2.1 rfl
  have hspace : newline ≠ space := by decide
  simp only [List.mem_append, List.mem_flatten, List.mem_map, not_or]
  refine ⟨hword k hk, ?_⟩
  rintro ⟨_, ⟨t, ht, rfl⟩, hmem⟩
  obtain h | h := List.mem_cons.1 hmem
  · exact hspace h
  · exact hword t (hts t ht) h

/-- A line that starts with a word is not skipped (45 R251). -/
theorem isSkipped_word {k : Token} {ts : List Token} (hk : isWord k = true) : isSkipped (k :: ts) = false := by
  obtain ⟨hne, hbytes⟩ := isWord_iff.1 hk
  cases k with
  | nil => exact absurd rfl hne
  | cons b k =>
    have hhash := (isWordByte_iff.1 (hbytes b List.mem_cons_self)).2.2
    simp [isSkipped, hhash]

/-- The lines of words that a text is written from are the lines read from it (45 R250 to R252). -/
theorem tokenLines_lineText {ls : List (List Token)} (h : ∀ l ∈ ls, isWordLine l = true) :
    tokenLines (ls.map lineText).flatten = ls := by
  induction ls with
  | nil => rfl
  | cons l ls ih =>
    obtain ⟨hl, hls⟩ := List.forall_mem_cons.1 h
    cases l with
    | nil => simp [isWordLine] at hl
    | cons k ts =>
      obtain ⟨hk, hts⟩ := isWordLine_cons.1 hl
      have hrest := ih hls
      rw [tokenLines] at hrest ⊢
      simp only [List.map_cons, List.flatten_cons, lineText, List.append_assoc, List.singleton_append]
      rw [← List.append_assoc, splitLines_append_newline (newline_notMem_words hk hts), List.map_cons,
        tokens_words hk hts, List.filter_cons, isSkipped_word hk, hrest]
      rfl

/-! ### The tokens the serializer writes -/

theorem isWord_digitsOf {base x : Nat} (hb : 2 ≤ base) (hbase : base ≤ 16) :
    isWord (digitsOf base (x + 1) x []) = true := by
  have hchar : ∀ d < 16, isWordByte (digitChar d) = true := by decide
  refine isWord_iff.2 ⟨fun hnil => ?_, ?_⟩
  · have hlen := length_digitsOf_gt (base := base) (x := x) (Nat.succ_pos x) []
    rw [hnil] at hlen
    exact Nat.lt_irrefl _ hlen
  · exact forall_mem_digitsOf hb (fun d hd => hchar d (by omega)) (by simp)

theorem isWord_decText (x : Nat) : isWord (decText x) = true := isWord_digitsOf (by decide) (by decide)

theorem isWord_hexWord (v : Word) : isWord (hexWord v) = true := by
  obtain ⟨-, hdigits⟩ := isWord_iff.1 (isWord_digitsOf (base := 16) (x := v.toNat) (by decide) (by decide))
  refine isWord_iff.2 ⟨List.cons_ne_nil _ _, ?_⟩
  exact List.forall_mem_cons.2 ⟨by decide, List.forall_mem_cons.2 ⟨by decide, hdigits⟩⟩

/-- The header line (45 R254). -/
def headerTokens (n : Nat) : List Token := [kwWorking, kwPoint, decText n]

/-- One WP line (45 R255). -/
def wpTokens (vals : List Word) : List Token := kwWp :: vals.map hexWord

/-- The four tokens of a cell (45 R257). -/
def quadTokens (q : Quad) : List Token := [hexWord q.v0, hexWord q.v1, hexWord q.v2, hexWord q.v3]

/-- One FREQ line (45 R256). -/
def freqTokens (q : FreqState) : List Token :=
  kwFreq :: decText q.pllSwUp.toNat :: decText q.pllSwDown.toNat :: (quadTokens q.raw ++ [decText q.vscnt.toNat])

/-- One DCVR line (45 R257). -/
def dcvrTokens (q : Quad) : List Token := kwDcvr :: quadTokens q

/-- The lines of a table's text after the header (45 R255 to R257, R268). -/
def bodyLines (p : Params) (t : Table) : List (List Token) :=
  t.wp.map wpTokens ++ ((if p.hasFreqLines then t.freq.map freqTokens else []) ++ t.dcvr.flatten.map dcvrTokens)

theorem headerText_eq (n : Nat) : headerText n = lineText (headerTokens n) := by
  simp [headerText, lineText, headerTokens]

theorem wpText_eq (vals : List Word) : wpText vals = lineText (wpTokens vals) := by
  rw [wpText, wpTokens, lineText, List.map_map]
  rfl

theorem freqText_eq (q : FreqState) : freqText q = lineText (freqTokens q) := by
  simp [freqText, lineText, freqTokens, quadText, quadTokens, hexText_eq]

theorem dcvrText_eq (q : Quad) : dcvrText q = lineText (dcvrTokens q) := by
  simp [dcvrText, lineText, dcvrTokens, quadText, quadTokens, hexText_eq]

/-- The serializer writes these lines (45 R268). -/
theorem serialize_eq (p : Params) (t : Table) :
    serialize p t = ((headerTokens t.wpNum :: bodyLines p t).map lineText).flatten := by
  have hwp : wpText = lineText ∘ wpTokens := funext wpText_eq
  have hfreq : freqText = lineText ∘ freqTokens := funext freqText_eq
  have hdcvr : dcvrText = lineText ∘ dcvrTokens := funext dcvrText_eq
  have hrows : (t.dcvr.map fun row => (row.map (lineText ∘ dcvrTokens)).flatten).flatten =
      (t.dcvr.flatten.map (lineText ∘ dcvrTokens)).flatten := by
    rw [List.map_flatten, List.flatten_flatten, List.map_map]
    rfl
  rw [serialize, hwp, hfreq, hdcvr, hrows, headerText_eq, bodyLines]
  cases p.hasFreqLines <;> simp

theorem isWord_of_mem_quadTokens {q : Quad} {t : Token} (h : t ∈ quadTokens q) : isWord t = true := by
  simp only [quadTokens, List.mem_cons, List.not_mem_nil, or_false] at h
  obtain rfl | rfl | rfl | rfl := h <;> exact isWord_hexWord _

theorem isWordLine_header (n : Nat) : isWordLine (headerTokens n) = true := by
  refine isWordLine_cons.2 ⟨by decide, List.forall_mem_cons.2 ⟨by decide, ?_⟩⟩
  exact List.forall_mem_singleton.2 (isWord_decText n)

theorem isWordLine_wp (vals : List Word) : isWordLine (wpTokens vals) = true :=
  isWordLine_cons.2 ⟨by decide, List.forall_mem_map.2 fun v _ => isWord_hexWord v⟩

theorem isWordLine_freq (q : FreqState) : isWordLine (freqTokens q) = true := by
  refine isWordLine_cons.2 ⟨by decide, List.forall_mem_cons.2 ⟨isWord_decText _,
    List.forall_mem_cons.2 ⟨isWord_decText _, List.forall_mem_append.2 ⟨fun _ => isWord_of_mem_quadTokens, ?_⟩⟩⟩⟩
  exact List.forall_mem_singleton.2 (isWord_decText _)

theorem isWordLine_dcvr (q : Quad) : isWordLine (dcvrTokens q) = true :=
  isWordLine_cons.2 ⟨by decide, fun _ => isWord_of_mem_quadTokens⟩

theorem isWordLine_of_mem_bodyLines {p : Params} {t : Table} : ∀ l ∈ bodyLines p t, isWordLine l = true := by
  refine List.forall_mem_append.2 ⟨List.forall_mem_map.2 fun v _ => isWordLine_wp v, List.forall_mem_append.2
    ⟨?_, List.forall_mem_map.2 fun q _ => isWordLine_dcvr q⟩⟩
  split
  · exact List.forall_mem_map.2 fun q _ => isWordLine_freq q
  · simp

/-- The lines read from a table's text are the lines written (45 R250 to R252, R268). -/
theorem tokenLines_serialize (p : Params) (t : Table) :
    tokenLines (serialize p t) = headerTokens t.wpNum :: bodyLines p t := by
  rw [serialize_eq, tokenLines_lineText]
  exact List.forall_mem_cons.2 ⟨isWordLine_header _, isWordLine_of_mem_bodyLines⟩

/-! ### Each line reads back -/

theorem hexTokens_hexWord (vs : List Word) : hexTokens (vs.map hexWord) = some vs := by
  induction vs with
  | nil => rfl
  | cons v vs ih => simp [hexTokens, hexToken_hexWord, ih]

theorem hexQuad_quadTokens (q : Quad) : hexQuad (quadTokens q) = some q := by
  simp [hexQuad, quadTokens, hexToken_hexWord]

theorem headerLine_headerTokens {n : Nat} (h1 : 1 ≤ n) (h2 : n ≤ 4294967295) :
    headerLine (headerTokens n) = some n := by
  simp [headerLine, headerTokens, decToken_decText h2, h1]

theorem wpLine_wpTokens {n : Nat} {vals : List Word} (h : vals.length = n) :
    wpLine n (wpTokens vals) = some vals := by
  simp [wpLine, wpTokens, h, hexTokens_hexWord]

theorem freqLine_freqTokens (q : FreqState) : freqLine (freqTokens q) = some q := by
  have hraw := hexQuad_quadTokens q.raw
  rw [quadTokens] at hraw
  simp [freqLine, freqTokens, quadTokens, decWord_decText, hraw]

theorem dcvrLine_dcvrTokens (q : Quad) : dcvrLine (dcvrTokens q) = some q := by
  simp [dcvrLine, dcvrTokens, hexQuad_quadTokens]

/-- Lines that each read back are read in order. -/
theorem readLines_map {α : Type} {f : List Token → Option α} {g : α → List Token} {as : List α} {n : Nat}
    (h : ∀ a ∈ as, f (g a) = some a) (hn : as.length = n) (rest : List (List Token)) :
    readLines f (as.map g ++ rest) n = some (as, rest) := by
  rw [← hn]
  refine readLines_append ?_
  rw [List.map_map]
  exact List.map_congr_left h

/-- Rows of `n` cells are the rows of their cells (45 R257). -/
theorem rows_flatten {α : Type} {n : Nat} {rs : List (List α)} (h : ∀ row ∈ rs, row.length = n) :
    rows n rs.length rs.flatten = rs := by
  induction rs with
  | nil => rfl
  | cons row rs ih =>
    obtain ⟨hrow, hrs⟩ := List.forall_mem_cons.1 h
    subst hrow
    simp [rows, ih hrs]

theorem length_flatten_rows {α : Type} {n : Nat} {rs : List (List α)} (h : ∀ row ∈ rs, row.length = n) :
    rs.flatten.length = rs.length * n := by
  rw [List.length_flatten, List.map_congr_left h]
  simp

/-- The body of lines that read to the end is the table of what they read as (45 R255 to R258). -/
theorem parseBody_of_readLines {p : Params} {n : Nat} {ls l1 l2 : List (List Token)} {wps : List (List Word)}
    {fs : List FreqState} {cs : List Quad} (hw : readLines (wpLine p.wpValues) ls n = some (wps, l1))
    (hf : readLines freqLine l1 (if p.hasFreqLines then p.nFreqStates else 0) = some (fs, l2))
    (hc : readLines dcvrLine l2 (p.nFreqStates * n) = some (cs, [])) :
    parseBody p n ls = some { wpNum := n, currWp := 0, wp := wps, dvfsStateNum := p.nFreqStates, freq := fs,
                              dcvr := rows n p.nFreqStates cs } := by
  simp [parseBody, hw, hf, hc]

/-- The lines after the header of a table's text read back as the table (45 R255 to R258). -/
theorem parseBody_bodyLines {p : Params} {t : Table} (h : tableOk p t = true) (h0 : t.currWp = 0) :
    parseBody p t.wpNum (bodyLines p t) = some t := by
  obtain ⟨-, -, -, hwps, hvals, hstates, hfreqs, hrows, hcells⟩ := tableOk_iff.1 h
  have hfreqLines : (if p.hasFreqLines then t.freq.map freqTokens else []) = t.freq.map freqTokens := by
    cases hp : p.hasFreqLines
    · have hnil : t.freq = [] := by simpa [hp] using hfreqs
      simp [hnil]
    · rfl
  have hcount : t.dcvr.flatten.length = p.nFreqStates * t.wpNum := by rw [length_flatten_rows hcells, hrows]
  have hdcvr := readLines_map (fun q _ => dcvrLine_dcvrTokens q) hcount []
  rw [List.append_nil] at hdcvr
  rw [bodyLines, hfreqLines, parseBody_of_readLines (readLines_map (fun v hv => wpLine_wpTokens (hvals v hv)) hwps _)
    (readLines_map (fun q _ => freqLine_freqTokens q) hfreqs _) hdcvr, ← hrows, rows_flatten hcells, hrows, ← hstates,
    ← h0]

/-- The text of a table of the variant's shape parses back to it (45 R270). -/
theorem parse_serialize {p : Params} {t : Table} (h : tableOk p t = true) (h0 : t.currWp = 0) :
    parse p (serialize p t) true = .ok t := by
  obtain ⟨h1, h2, -⟩ := tableOk_iff.1 h
  simp [parse, tokenLines_serialize, headerLine_headerTokens h1 h2, parseBody_bodyLines h h0]

/-! ### What a parse comes to -/

/-- A parsed table stands at working point 0 and was allocated (45 R259, R261, R262). -/
theorem parse_ok {p : Params} {text : List Byte} {ok : Bool} {t : Table} (h : parse p text ok = .ok t) :
    t.currWp = 0 ∧ ok = true := by
  obtain ⟨-, he⟩ | ⟨_, _, _, -, -, ⟨-, he⟩ | ⟨-, -, he⟩ | ⟨hok, u, hb, hu⟩⟩ := parse_cases p text ok
  · rw [he] at h; cases h
  · rw [he] at h; cases h
  · rw [he] at h; cases h
  · rw [hu] at h; cases h
    obtain ⟨_, _, _, _, _, -, -, -, rfl⟩ := parseBody_eq_some hb
    exact ⟨rfl, hok⟩

/-- A parse gives two errors, AllocFailed only without allocation (45 R259, R261). -/
theorem parse_error {p : Params} {text : List Byte} {ok : Bool} {e : Err} (h : parse p text ok = .error e) :
    e = .parseError ∨ (e = .allocFailed ∧ ok = false) := by
  obtain ⟨-, he⟩ | ⟨_, _, _, -, -, ⟨hok, he⟩ | ⟨-, -, he⟩ | ⟨-, u, -, hu⟩⟩ := parse_cases p text ok
  · rw [he] at h; cases h; exact .inl rfl
  · rw [he] at h; cases h; exact .inr ⟨rfl, hok⟩
  · rw [he] at h; cases h; exact .inl rfl
  · rw [hu] at h; cases h

/-- A header that does not parse fails whether the allocation would succeed or not (45 R261). -/
theorem parse_parseError_alloc {p : Params} {text : List Byte} (h : parse p text false = .error .parseError) :
    parse p text true = .error .parseError := by
  obtain ⟨-, he⟩ | ⟨hdr, ls, n, hl, hn, -⟩ := parse_cases p text true
  · exact he
  · simp [parse, hl, hn] at h

/-- Settles O47: each way a parse comes out, by `parse_cases`. -/
theorem parseGivesShapedTablesOrTheTwoErrors : Obligations.ParseGivesShapedTablesOrTheTwoErrors :=
  fun _ _ => ⟨fun _ _ h => ⟨parse_tableOk h, parse_ok h⟩, fun _ _ => parse_error, parse_parseError_alloc⟩

/-- Settles O48: the lines read from the text are the lines written, and each reads back. -/
theorem serializedTablesParseBack : Obligations.SerializedTablesParseBack :=
  ⟨fun _ _ => parse_serialize, fun _ _ _ _ h => parse_serialize (parse_tableOk h) (parse_ok h).1⟩

end Sys2Proof.Machine
end

section
/-! SUPPORT. The table commands (45_table_io R263 to R269): the busy check, the read of the text and what follows it,
and the write of the text. -/

namespace Sys2Proof.Machine

section TableCommands
variable {s : State} {w : Word} {a : Args} {i : Instr}

/-- What keeps a table from being swapped (45 R265). -/
theorem tableBusy_iff : s.tableBusy = true ↔
    s.dptcActive = true ∨ s.mbPending = true ∨ s.rx ≠ .idle ∨ (s.params.hasSdma = false ∧ s.dvfsActive = true) := by
  simp [State.tableBusy, or_assoc]

/-- A line that ends with an error a command that holds no lock (60 R320). -/
theorem exec_lines_raised {l : SeqLine} {rest : List SeqLine} {e : Err} (hfree : s.dvfsLock = .free)
    (h : SeqEnd (withLines s w a (l :: rest)) l ((withLines s w a (l :: rest)).raiseErr e)) :
    exec i (withLines s w a (l :: rest)) = .next (raised s e.result) := by
  have hstart : l ≠ .start := by rintro rfl; cases h
  rw [exec_line_ended (s := withLines s w a (l :: rest)) rfl hstart (SeqLine.run_over_iff.2 h),
    raiseErr_of_free (s := withLines s w a (l :: rest)) hfree]
  rfl

theorem setTablePlan_refuses (hsus : s.suspended = false) (h : 8192 < a.a0.toNat) :
    planOf .setTable s a = [.raise .inputTooLarge] := by
  simp [planOf, setTablePlan, hsus, tableTextMax, u32, h]

theorem setTablePlan_reads (hsus : s.suspended = false) (h : a.a0.toNat ≤ 8192) :
    planOf .setTable s a = [.readText a.a0.toNat] := by
  simp [planOf, setTablePlan, hsus, tableTextMax, u32, not_lt.2 h]

/-- The first step of SET_TABLE reads the text, and the parse says what follows (45 R263). -/
theorem setTable_reads (hs : s.seq = .run { word := w, args := a, todo := [.start] }) (hsus : s.suspended = false)
    (hlen : a.a0.toNat ≤ 8192) : exec .setTable s =
      .next (withLines s w a (parsedLines s.params (s.data.readBytes 0 a.a0.toNat) s.env.allocOk)) := by
  rw [exec_start_done hs (setTablePlan_reads hsus hlen) (SeqLine.run_done_iff.2 .readText), List.append_nil]
  rfl

/-- A text that does not parse is refused in the second step (45 R259, R267). -/
theorem setTable_parse_error {e : Err} (hs : s.seq = .run { word := w, args := a, todo := [.start] })
    (hu : Unlocked s) (hsus : s.suspended = false) (hlen : a.a0.toNat ≤ 8192)
    (he : parse s.params (s.data.readBytes 0 a.a0.toNat) s.env.allocOk = .error e) :
    execTimes .setTable 2 s = .next (raised s e.result) := by
  obtain ⟨-, hfree, -, -⟩ := hu
  have hlines : parsedLines s.params (s.data.readBytes 0 a.a0.toNat) s.env.allocOk = [.raise e] := by
    simp [parsedLines, he]
  rw [execTimes_succ (setTable_reads hs hsus hlen), hlines, execTimes_succ (exec_lines_raised hfree .raised),
    execTimes_zero]

/-- A text that parses goes on with the swap (45 R263). -/
theorem setTable_parsed {t : Table} (hs : s.seq = .run { word := w, args := a, todo := [.start] })
    (hsus : s.suspended = false) (hlen : a.a0.toNat ≤ 8192)
    (ht : parse s.params (s.data.readBytes 0 a.a0.toNat) s.env.allocOk = .ok t) :
    exec .setTable s = .next (withLines s w a [.swap t, .ret 0 0]) := by
  have hlines : parsedLines s.params (s.data.readBytes 0 a.a0.toNat) s.env.allocOk = [.swap t, .ret 0 0] := by
    simp [parsedLines, ht]
  rw [setTable_reads hs hsus hlen, hlines]

theorem getTablePlan_noTable (ht : s.table = none) : planOf .getTable s a = [.raise .noTable] := by
  simp [planOf, getTablePlan, ht]

theorem getTablePlan_tooLarge {t : Table} (ht : s.table = some t) (h : 8192 < (serialize s.params t).length) :
    planOf .getTable s a = [.raise .outputTooLarge] := by
  simp [planOf, getTablePlan, ht, writeTextLines, Memory.size, h]

theorem getTablePlan_writes {t : Table} (ht : s.table = some t) (h : (serialize s.params t).length ≤ 8192) :
    planOf .getTable s a =
      [.memWrite (serialize s.params t), .ret (BitVec.ofNat 32 (serialize s.params t).length) 0] := by
  simp [planOf, getTablePlan, ht, writeTextLines, Memory.size, not_lt.2 h]

/-- GET_TABLE writes the text and returns its length (45 R269). -/
theorem getTable_run {t : Table} (hs : s.seq = .run { word := w, args := a, todo := [.start] }) (hu : Unlocked s)
    (ht : s.table = some t) (hlen : (serialize s.params t).length ≤ 8192) :
    execTimes .getTable 2 s = .next { ended s (BitVec.ofNat 32 (serialize s.params t).length) 0 with
      data := s.data.writeBytes 0 (serialize s.params t) } := by
  obtain ⟨-, hfree, -, -⟩ := hu
  have hplan := getTablePlan_writes (a := a) ht hlen
  generalize serialize s.params t = text at hplan ⊢
  have hwrite : exec .getTable s = .next (withLines { s with data := s.data.writeBytes 0 text } w a
      [.ret (BitVec.ofNat 32 text.length) 0]) := exec_start_done hs hplan (SeqLine.run_done_iff.2 .memWrite)
  rw [execTimes_succ hwrite]
  exact execTimes_ret rfl hfree

end TableCommands

/-- Settles O44: the read, the swap of a table that is not in use, and the return. -/
theorem setTableInstallsTheParsedTable : Obligations.SetTableInstallsTheParsedTable := by
  rintro s a t ⟨w, hs⟩ ⟨-, hfree, -, -⟩ hsus hlen hparse hact hmb hrx hdvfs
  have hidle : s.tableBusy = false := by
    rw [← Bool.not_eq_true, tableBusy_iff]
    obtain h | h := hdvfs <;> simp [hact, hmb, hrx, h]
  have hswap : exec .setTable (withLines s w a [.swap t, .ret 0 0]) =
      .next (withLines { s with table := some t, prevWp := 0 } w a [.ret 0 0]) :=
    exec_lines (s' := withLines { s with table := some t, prevWp := 0 } w a [.swap t, .ret 0 0]) (.swap hidle)
  rw [execTimes_succ (setTable_parsed hs hsus hlen hparse), execTimes_succ hswap]
  exact execTimes_ret rfl hfree

/-- Settles O45: each failure is a raise, in the first step or in place of the swap. -/
theorem failedSetTableLeavesTheTable : Obligations.FailedSetTableLeavesTheTable := by
  intro s w a hs hu hsus
  refine ⟨fun hlarge => ?_, fun hlen => ?_, fun hlen e he => ?_, fun hlen t ht hbusy => ?_⟩
  · exact exec_refuse hs hu (setTablePlan_refuses hsus hlarge)
  · exact setTable_reads hs hsus hlen
  · have hrun := setTable_parse_error hs hu hsus hlen he
    obtain rfl | ⟨rfl, -⟩ := parse_error he
    · exact .inl ⟨rfl, hrun⟩
    · exact .inr ⟨rfl, hrun⟩
  · obtain ⟨-, hfree, -, -⟩ := hu
    rw [execTimes_succ (setTable_parsed hs hsus hlen ht),
      execTimes_succ (exec_lines_raised hfree (.busy (tableBusy_iff.2 hbusy))), execTimes_zero]
    rfl

/-- Settles O46: each check's raise, or the write and the return; `Memory.read_writeBytes` says what is written. -/
theorem getTableWritesTheTextOnly : Obligations.GetTableWritesTheTextOnly := by
  rintro s a ⟨w, hs⟩ hu hwf
  refine ⟨fun ht => ?_, fun t ht hlarge => ?_, fun t ht hlen => ?_⟩
  · exact exec_refuse hs hu (getTablePlan_noTable ht)
  · exact exec_refuse hs hu (getTablePlan_tooLarge ht hlarge)
  · refine ⟨s.data.writeBytes 0 (serialize s.params t), getTable_run hs hu ht hlen, fun x => ?_⟩
    have hin : 0 + (serialize s.params t).length ≤ Memory.size := by rw [Nat.zero_add]; exact hlen
    rw [Memory.read_writeBytes hwf 0 _ hin]
    simp

end Sys2Proof.Machine
end

section
/-! SUPPORT. The suspend flag (46_control_surface R290 to R293): the gate at the start of a command, the two commands
that write the flag, and that no other line looks at it. -/

namespace Sys2Proof.Machine

/-! ### The gate and the flag's two commands -/

/-- The commands that begin with the check of `S.suspended` (46 R291). -/
def gatedCommands : List Instr :=
  [.dptcEnable, .dptcDisable, .dptcEnableRc, .dptcDisableRc, .dptcSetWp, .setFreqIndex, .setTable, .dvfsEnable,
    .dvfsDisable, .logRead]

/-- The commands that neither check nor write `S.suspended` (46 R291). -/
def ungatedCommands : List Instr :=
  [.dptcGetState, .dvfsGetState, .getCpuFreq, .getTable, .dvfsReqFreq, .dvfsIntscale, .dvfsPllscale, .dvfsRelock,
    .lpmEnter]

/-- A gated command's whole plan is the refusal while the flag is set (46 R290). -/
theorem planOf_gated {s : State} {i : Instr} (hi : i ∈ gatedCommands) (hsus : s.suspended = true) (a : Args) :
    planOf i s a = [.raise .suspendedError] := by
  simp only [gatedCommands, List.mem_cons, List.not_mem_nil, or_false] at hi
  obtain rfl | rfl | rfl | rfl | rfl | rfl | rfl | rfl | rfl | rfl := hi <;> exact if_pos hsus

/-- A command whose only line writes the flag (46 R292, R293). -/
theorem exec_setSuspended {s : State} {w : Word} {a : Args} {i : Instr} {b : Bool}
    (hs : s.seq = .run { word := w, args := a, todo := [.start] }) (hp : planOf i s a = [.setSuspended b]) :
    exec i s = .next ({ s with suspended := b }.finish 0 0) :=
  exec_start_ended hs hp (SeqLine.run_over_iff.2 .suspended)

/-- Settles O51: each command's one line writes the flag and returns. -/
theorem suspendAndResumeWriteTheFlagOnly : Obligations.SuspendAndResumeWriteTheFlagOnly := by
  rintro s a ⟨w, hs⟩ ⟨-, hfree, -, -⟩
  have hrun (i : Instr) (b : Bool) (hp : planOf i s a = [.setSuspended b]) :
      exec i s = .next { ended s 0 0 with suspended := b } := by
    rw [exec_setSuspended hs hp, finish_of_free (s := { s with suspended := b }) hfree]
    rfl
  exact ⟨hrun .sysSuspend true rfl, hrun .sysResume false rfl⟩

/-! ### Lines that do not look at the flag -/

/-- `s` with the suspend flag at `b`. -/
def withSuspended (s : State) (b : Bool) : State := { s with suspended := b }

/-- What a line comes to, with its state mapped. -/
def LineResult.mapState {α : Type} (f : State → State) : LineResult α → LineResult α
  | .done s more => .done (f s) more
  | .wait => .wait
  | .ended s => .ended (f s)
  | .fault e => .fault e

/-- What a test decides is mapped branch by branch. -/
theorem LineResult.mapState_ite {α : Type} (f : State → State) (c : Prop) [Decidable c] (x y : LineResult α) :
    (if c then x else y).mapState f = if c then x.mapState f else y.mapState f := apply_ite ..

section Flag
variable (s : State) (b : Bool)

@[simp] theorem withSuspended_params : (withSuspended s b).params = s.params := rfl
@[simp] theorem withSuspended_table : (withSuspended s b).table = s.table := rfl
@[simp] theorem withSuspended_env : (withSuspended s b).env = s.env := rfl
@[simp] theorem withSuspended_seq : (withSuspended s b).seq = s.seq := rfl

@[simp] theorem withSuspended_currentFreqIndex : (withSuspended s b).currentFreqIndex = s.currentFreqIndex := rfl

theorem writeCsr_withSuspended (r : Csr) (v : Word) :
    (withSuspended s b).writeCsr r v = withSuspended (s.writeCsr r v) b := by
  cases r with
  | div =>
    simp only [State.writeCsr, State.writeDiv]
    rw [apply_ite (withSuspended · b)]
    rfl
  | _ => rfl

@[simp] theorem readCsr_withSuspended (r : Csr) : (withSuspended s b).readCsr r = s.readCsr r := by cases r <;> rfl

theorem runModify_withSuspended (r : Csr) (m v : Word) :
    runModify r m v (withSuspended s b) = (runModify r m v s).mapState (withSuspended · b) := by
  simp only [runModify, LineResult.mapState_ite, State.modifyCsr, readCsr_withSuspended, writeCsr_withSuspended]
  rfl

/-- A line of a shared procedure does not look at the flag and leaves it (46 R290). -/
theorem Op.run_withSuspended (o : Op) : o.run (withSuspended s b) = (o.run s).mapState (withSuspended · b) := by
  cases o with
  | modify r m v => exact runModify_withSuspended s b r m v
  | write r v => simp only [Op.run, writeCsr_withSuspended, LineResult.mapState]
  | rcEnable => exact runModify_withSuspended s b _ _ _
  | setWp g =>
    cases ht : s.table with
    | none => simp only [Op.run, runSetWp, withSuspended_table, ht, LineResult.mapState]
    | some t =>
      cases hS : s.params.hasSdma <;>
        simp only [Op.run, runSetWp, withSuspended_table, withSuspended_params, ht, hS] <;> rfl
  | setCurrWp w =>
    cases ht : s.table <;> simp only [Op.run, runSetCurrWp, withSuspended_table, ht] <;> rfl
  | thresholds w =>
    cases ht : s.table with
    | none => simp only [Op.run, runThresholds, withSuspended_table, ht, LineResult.mapState]
    | some t =>
      cases hq : tableCell t s.currentFreqIndex (w.getD t.currWp) <;>
        simp only [Op.run, runThresholds, withSuspended_table, withSuspended_currentFreqIndex, ht, hq] <;> rfl
  | pmicGet ch w =>
    cases hp : s.env.pmicStalled <;> simp only [Op.run, runPmicGet, withSuspended_env, hp] <;> rfl
  | pmicSet ch w c =>
    simp only [Op.run, runPmicSet, withSuspended_env, LineResult.mapState_ite]
    cases ht : s.table with
    | none => simp only [withSuspended_table, ht, LineResult.mapState]
    | some t => cases hv : t.wp[w]? <;> simp only [withSuspended_table, ht, hv] <;> rfl
  | logInsert =>
    have hentry : (withSuspended s b).logEntry = s.logEntry := rfl
    simp only [Op.run, runLogInsert, hentry, LineResult.mapState_ite]
    cases s.logEntry <;> rfl

theorem Assign.run_withSuspended (x : Assign) :
    x.run (withSuspended s b) = (x.run s).mapState (withSuspended · b) := by
  cases x with
  | freqIndexOf hz =>
    simp only [Assign.run, withSuspended_table, withSuspended_params]
    cases s.table with
    | none => rfl
    | some t =>
      simp only [LineResult.mapState_ite]
      rfl
  | _ => rfl

/-- No line of SEQ but `setSuspended` looks at the flag, and it leaves the flag as it was (46 R290). -/
theorem SeqLine.run_withSuspended {l : SeqLine} (hl : ∀ b', l ≠ .setSuspended b') (a : Args) :
    l.run a (withSuspended s b) = (l.run a s).mapState (withSuspended · b) := by
  cases l with
  | op o =>
    simp only [SeqLine.run, Op.run_withSuspended]
    cases o.run s <;> rfl
  | assign x => exact Assign.run_withSuspended s b x
  | setSuspended b' => exact absurd rfl (hl b')
  | read r k => simp only [SeqLine.run, readCsr_withSuspended, withSuspended_params, LineResult.mapState]
  | readClock k =>
    simp only [SeqLine.run, runReadClock, readCsr_withSuspended, LineResult.mapState_ite]
    rfl
  | acquireDvfs =>
    simp only [SeqLine.run, runAcquire, LineResult.mapState_ite]
    rfl
  | poll p =>
    simp only [SeqLine.run, runPoll, LineResult.mapState_ite]
    rfl
  | swap t =>
    simp only [SeqLine.run, runSwap, LineResult.mapState_ite]
    rfl
  | drainLog n =>
    simp only [SeqLine.run, runDrain, LineResult.mapState_ite]
    rfl
  | retCurrWp =>
    simp only [SeqLine.run, runRetCurrWp, withSuspended_table]
    cases s.table <;> rfl
  | _ => rfl

/-- A turn of SEQ on lines that do not write the flag. -/
theorem takeLine_withSuspended {job : Job} {t : State} (hjob : ∀ b', SeqLine.setSuspended b' ∉ job.todo)
    (h : s.takeLine job = .next t) : (withSuspended s b).takeLine job = .next (withSuspended t b) := by
  unfold State.takeLine at h ⊢
  cases htodo : job.todo with
  | nil =>
    rw [htodo] at h
    cases h
    rfl
  | cons l rest =>
    have hl (b' : Bool) : l ≠ .setSuspended b' := by
      rintro rfl
      exact hjob b' (by simp [htodo])
    rw [htodo] at h
    simp only [SeqLine.run_withSuspended s b hl]
    cases hrun : l.run job.args s <;> simp only [hrun] at h <;> cases h <;> rfl

end Flag

/-! ### Commands that do not look at the flag -/

section Ungated
variable {s : State} {i : Instr}

theorem planOf_withSuspended (hi : i ∈ ungatedCommands) (s : State) (b : Bool) (a : Args) :
    planOf i (withSuspended s b) a = planOf i s a := by
  simp only [ungatedCommands, List.mem_cons, List.not_mem_nil, or_false] at hi
  obtain rfl | rfl | rfl | rfl | rfl | rfl | rfl | rfl | rfl := hi <;> rfl

theorem setSuspended_notMem_intscaleLines (p : Params) (a : Args) (b : Bool) :
    SeqLine.setSuspended b ∉ intscaleLines p a := by
  unfold intscaleLines
  split <;> simp

theorem setSuspended_notMem_pllscaleLines (p : Params) (a : Args) (b : Bool) :
    SeqLine.setSuspended b ∉ pllscaleLines p a := by
  unfold pllscaleLines
  split <;> simp

/-- No ungated command's plan writes the flag. -/
theorem setSuspended_notMem_planOf (hi : i ∈ ungatedCommands) (s : State) (a : Args) (b : Bool) :
    SeqLine.setSuspended b ∉ planOf i s a := by
  cases i with
  | dptcGetState => simp [planOf, dptcGetStatePlan]
  | dvfsGetState =>
    simp only [planOf, dvfsGetStatePlan]
    split <;> simp
  | getCpuFreq => simp [planOf, getCpuFreqPlan]
  | getTable =>
    simp only [planOf, getTablePlan, writeTextLines]
    split
    · simp
    · split <;> simp
  | dvfsReqFreq =>
    simp only [planOf, reqFreqPlan]
    split_ifs
    · exact setSuspended_notMem_intscaleLines s.params a b
    · exact setSuspended_notMem_pllscaleLines s.params a b
    · simp
  | dvfsIntscale => exact setSuspended_notMem_intscaleLines s.params a b
  | dvfsPllscale => exact setSuspended_notMem_pllscaleLines s.params a b
  | dvfsRelock =>
    simp only [planOf, relockPlan, relockLines]
    split_ifs <;> simp
  | lpmEnter =>
    simp only [planOf, lpmEnterPlan]
    split <;> simp
  | _ => exact absurd hi (by decide)

/-- A step of an ungated command is the same whatever the flag is, and leaves it (46 R290). -/
theorem exec_withSuspended {t : State} (hi : i ∈ ungatedCommands)
    (hlines : ∀ job, s.seq = .run job → ∀ b, SeqLine.setSuspended b ∉ job.todo) (b : Bool)
    (h : exec i s = .next t) : exec i (withSuspended s b) = .next (withSuspended t b) := by
  cases hseq : s.seq with
  | idle =>
    rw [exec_eq_runCommand] at h ⊢
    simp only [runCommand, withSuspended_seq, hseq] at h ⊢
    cases h
    rfl
  | run job =>
    have hsame : linesOf i (withSuspended s b) job = linesOf i s job := by
      unfold linesOf
      split
      · exact planOf_withSuspended hi s b job.args
      · rfl
    have hnone (b' : Bool) : SeqLine.setSuspended b' ∉ linesOf i s job := by
      unfold linesOf
      split
      · exact setSuspended_notMem_planOf hi s job.args b'
      · exact hlines job hseq b'
    rw [exec_run (s := withSuspended s b) hseq, hsame]
    rw [exec_run hseq] at h
    exact takeLine_withSuspended s b hnone h

end Ungated

/-- Settles O40: a gated command's plan is the refusal, an ungated one's lines do not look at the flag, and the two
that write it do so whatever it was. -/
theorem suspendGateComesFirst : Obligations.SuspendGateComesFirst := by
  refine ⟨?_, fun s t i b hlines hi h => exec_withSuspended hi hlines b h, ?_⟩
  · rintro s a i ⟨w, hs⟩ hu hsus hi
    exact exec_refuse hs hu (planOf_gated hi hsus a)
  · rintro s a i b ⟨w, hs⟩ hi
    obtain ⟨c, hplan⟩ : ∃ c, ∀ u, planOf i u a = [.setSuspended c] := by
      simp only [List.mem_cons, List.not_mem_nil, or_false] at hi
      obtain rfl | rfl := hi
      · exact ⟨true, fun _ => rfl⟩
      · exact ⟨false, fun _ => rfl⟩
    rw [exec_setSuspended hs (hplan s), exec_setSuspended (s := { s with suspended := b }) hs (hplan _)]

end Sys2Proof.Machine
end

section
/-! SUPPORT. The diagnostic log (46_control_surface R300 to R305): the entries a ring retains, what an insert makes of
them, and the records LOG_READ writes. -/

namespace Sys2Proof.Machine

/-! ### Positions in the ring -/

section Ring
variable {cap : Nat} {l : LogRing}

/-- A position of the ring and a number of slots after it, at most once around. -/
theorem add_mod_ring {x n : Nat} (hx : x < cap) (hn : n ≤ cap) :
    (x + n) % cap = if x + n < cap then x + n else x + n - cap := by
  split
  · exact Nat.mod_eq_of_lt ‹_›
  · rw [Nat.mod_eq_sub_mod (by omega), Nat.mod_eq_of_lt (by omega)]

/-- The number of retained entries, without the remainder (10_state R49). -/
theorem logCount_eq (h : ringOk cap l) :
    logCount cap l = if l.tail ≤ l.head then l.head - l.tail else l.head + cap - l.tail := by
  obtain ⟨-, -, hhead, htail⟩ := h
  rw [logCount, Nat.add_sub_assoc (Nat.le_of_lt htail), add_mod_ring hhead (Nat.sub_le _ _)]
  split_ifs <;> omega

/-- Head is as many slots after tail as there are entries (10_state R49). -/
theorem head_eq (h : ringOk cap l) : (l.tail + logCount cap l) % cap = l.head := by
  have hcount := logCount_lt h
  have ⟨_, _, hhead, htail⟩ := h
  rw [add_mod_ring htail (Nat.le_of_lt hcount)]
  rw [logCount_eq h] at hcount ⊢
  split_ifs <;> omega

/-- An entry's slot is not head (10_state R49). -/
theorem slot_ne_head (h : ringOk cap l) {i : Nat} (hi : i < logCount cap l) : (l.tail + i) % cap ≠ l.head := by
  have hcount := logCount_lt h
  have ⟨_, _, hhead, htail⟩ := h
  rw [add_mod_ring htail (by omega)]
  rw [logCount_eq h] at hi
  split_ifs at hi ⊢ <;> omega

/-- How many entries an insert drops: one if the ring is full (46 R300). -/
def dropped (cap : Nat) (l : LogRing) : Nat := logCount cap l + 1 - (cap - 1)

/-- An insert moves tail over what it drops (46 R300). -/
theorem tail_push (h : ringOk cap l) (e : LogEntry) :
    (logPush cap l e).tail = (l.tail + dropped cap l) % cap := by
  have hcount := logCount_lt h
  have ⟨hcap, _, hhead, htail⟩ := h
  rw [dropped, add_mod_ring htail (by omega)]
  simp only [logPush]
  rw [add_mod_ring hhead hcap, add_mod_ring htail hcap]
  rw [logCount_eq h] at hcount ⊢
  split_ifs <;> omega

/-- An insert adds one entry to those it does not drop (46 R300). -/
theorem logCount_push (h : ringOk cap l) (e : LogEntry) :
    logCount cap (logPush cap l e) = logCount cap l + 1 - dropped cap l := by
  have hcount := logCount_lt h
  have htail' := tail_push h e
  have ⟨hcap, _, hhead, htail⟩ := h
  have hhead' : (logPush cap l e).head = (l.head + 1) % cap := rfl
  rw [logCount_eq (ringOk_push h e), htail', hhead', dropped, add_mod_ring htail (by omega), add_mod_ring hhead hcap]
  rw [logCount_eq h] at hcount ⊢
  split_ifs <;> omega

/-! ### The entries of a ring -/

/-- The entries a ring retains, oldest first (10_state R49, 46 R305). -/
def retained (cap : Nat) (l : LogRing) : List LogEntry := logOldest cap l (logCount cap l)

@[simp] theorem length_retained (cap : Nat) (l : LogRing) : (retained cap l).length = logCount cap l :=
  length_logOldest ..

/-- After an insert the slots from the old tail on hold the old entries and then the new one. -/
theorem retained_concat (h : ringOk cap l) (e : LogEntry) :
    retained cap l ++ [e] =
      (List.range (logCount cap l + 1)).map fun i => logSlot (logPush cap l e) ((l.tail + i) % cap) := by
  rw [List.range_succ, List.map_append, List.map_singleton, head_eq h, logSlot_push_head h]
  refine congrArg (· ++ [e]) (List.map_congr_left fun i hi => ?_)
  exact (logSlot_push_other e (slot_ne_head h (List.mem_range.1 hi))).symm

/-- An insert retains the newest `cap - 1` of the old entries and the new one (46 R300, R305). -/
theorem retained_push (h : ringOk cap l) (e : LogEntry) :
    retained cap (logPush cap l e) = (retained cap l ++ [e]).rtake (cap - 1) := by
  have hdrop : (retained cap l ++ [e]).rtake (cap - 1) = (retained cap l ++ [e]).drop (dropped cap l) := by
    simp [List.rtake, dropped]
  rw [hdrop, retained_concat h, retained, logOldest, logCount_push h, tail_push h]
  refine List.ext_getElem (by simp) fun i _ _ => ?_
  simp [Nat.add_assoc]

/-- Keeping the newest `n` on the way does not change which `n` are newest at the end. -/
theorem rtake_rtake_append {α : Type} (xs ys : List α) (n : Nat) :
    (xs.rtake n ++ ys).rtake n = (xs ++ ys).rtake n := by
  simp only [List.rtake, List.drop_append, List.drop_drop, List.length_append, List.length_drop]
  congr 2 <;> omega

/-- Any number of inserts retains the newest `cap - 1` of the entries before and those inserted (46 R300, R305). -/
theorem retained_foldl (h : ringOk cap l) (es : List LogEntry) :
    retained cap (es.foldl (logPush cap) l) = (retained cap l ++ es).rtake (cap - 1) := by
  induction es generalizing l with
  | nil =>
    have hcount := logCount_lt h
    simp [List.rtake, Nat.sub_eq_zero_of_le (Nat.le_sub_one_of_lt hcount)]
  | cons e es ih =>
    rw [List.foldl_cons, ih (ringOk_push h e), retained_push h, rtake_rtake_append, List.append_assoc,
      List.singleton_append]

end Ring

theorem retained_empty (cap : Nat) : retained cap (emptyLog cap) = [] :=
  List.eq_nil_of_length_eq_zero (by simp [logCount, emptyLog])

/-- Settles O50: what a ring retains after any inserts (`retained_foldl`), from the empty ring. -/
theorem logKeepsTheNewestEntries : Obligations.LogKeepsTheNewestEntries := by
  intro cap es hcap
  have hkept : retained cap (es.foldl (logPush cap) (emptyLog cap)) = es.rtake (cap - 1) := by
    rw [retained_foldl (ringOk_empty (by omega)), retained_empty, List.nil_append]
  have hcount := congrArg List.length hkept
  rw [length_retained, List.rtake, List.length_drop] at hcount
  refine ⟨by omega, hkept.trans ?_⟩
  rw [List.rtake]
  congr 1
  omega

/-! ### The records LOG_READ writes -/

theorem length_records (es : List LogEntry) : (es.map logRecord).flatten.length = 16 * es.length := by
  induction es with
  | nil => rfl
  | cons e es ih =>
    rw [List.map_cons, List.flatten_cons, List.length_append, ih, length_logRecord, List.length_cons]
    omega

/-- Record `i` stands at byte `16 i` (46 R303). -/
theorem record_at {es : List LogEntry} {i : Nat} {e : LogEntry} (h : es[i]? = some e) :
    ((es.map logRecord).flatten.drop (16 * i)).take 16 = logRecord e := by
  induction es generalizing i with
  | nil => simp at h
  | cons x es ih =>
    rw [List.map_cons, List.flatten_cons]
    cases i with
    | zero =>
      obtain rfl : x = e := by simpa using h
      exact List.take_left' (length_logRecord x)
    | succ i =>
      have hpos : 16 * (i + 1) = (logRecord x).length + 16 * i := by rw [length_logRecord]; omega
      rw [hpos, List.drop_length_add_append]
      exact ih (by simpa using h)

/-- MemRead of bytes that MemWrite has written. -/
theorem Memory.readBytes_writeBytes {m : Memory} (h : m.wf = true) {a k n : Nat} {bs : List Byte}
    (hs : a + bs.length ≤ Memory.size) (hk : k + n ≤ bs.length) :
    (m.writeBytes a bs).readBytes (a + k) n = (bs.drop k).take n := by
  refine List.ext_getElem (by simp; omega) fun j hj _ => ?_
  rw [Memory.length_readBytes] at hj
  rw [Memory.getElem_readBytes, Memory.read_writeBytes h a bs hs, dif_pos (by omega)]
  simp only [List.getElem_take, List.getElem_drop]
  congr 1
  omega

/-- A slot that holds an entry reads as it. -/
theorem logSlot_of_some {l : LogRing} {i : Nat} {e : LogEntry} (h : l.buf[i]? = some (some e)) : logSlot l i = e := by
  simp [logSlot, h]

theorem getElem?_logOldest {cap n i : Nat} {l : LogRing} (h : i < n) :
    (logOldest cap l n)[i]? = some (logSlot l ((l.tail + i) % cap)) := by
  simp [logOldest, h]

/-- The bytes LOG_READ writes: the `n` oldest records, oldest first (46 R302, R303). -/
def drainBytes (s : State) (n : Nat) : List Byte :=
  ((logOldest s.params.logCapacity s.log n).map logRecord).flatten

theorem length_drainBytes (s : State) (n : Nat) : (drainBytes s n).length = 16 * n := by
  rw [drainBytes, length_records, length_logOldest]

/-- LOG_READ's two steps: the drain and the return of the count (46 R302). -/
theorem logRead_run {s : State} {w : Word} {a : Args} {n : Nat}
    (hs : s.seq = .run { word := w, args := a, todo := [.start] }) (hu : Unlocked s) (hsus : s.suspended = false)
    (hn : s.drainCount a.a0.toNat = n) :
    execTimes .logRead 2 s = .next { ended s (BitVec.ofNat 32 n) 0 with
      data := s.data.writeBytes 0 (drainBytes s n), log := logDrop s.params.logCapacity s.log n } := by
  obtain ⟨-, hfree, hmutex, -⟩ := hu
  have hplan : planOf .logRead s a = [.drainLog a.a0.toNat] := if_neg (by rw [hsus]; exact Bool.false_ne_true)
  subst hn
  rw [execTimes_succ (exec_start_done hs hplan (SeqLine.run_done_iff.2 (.drain hmutex)))]
  exact execTimes_ret rfl hfree

/-- Settles O49: the drain writes the records at offset 0 and moves tail; what each byte is then is MemWrite's. -/
theorem logReadDrainsTheOldestRecords : Obligations.LogReadDrainsTheOldestRecords := by
  rintro s a ⟨w, hs⟩ hu hsus - hwf cap n
  have hrun := logRead_run hs hu hsus (n := n) rfl
  have hlen : (drainBytes s n).length = 16 * n := length_drainBytes s n
  have hin : 0 + (drainBytes s n).length ≤ Memory.size := by
    have : n ≤ 512 := (min_le_right _ _).trans (min_le_right _ _)
    rw [hlen, Memory.size]
    omega
  refine ⟨s.data.writeBytes 0 (drainBytes s n), hrun, fun i e hi he => ?_, fun x hx => ?_⟩
  · have hread := Memory.readBytes_writeBytes (k := 16 * i) (n := 16) hwf hin (by omega)
    rw [Nat.zero_add] at hread
    rw [hread, drainBytes, record_at ((getElem?_logOldest hi).trans (congrArg some (logSlot_of_some he)))]
    rfl
  · rw [Memory.read_writeBytes hwf 0 _ hin, dif_neg (by omega)]

end Sys2Proof.Machine
end

section
/-! SUPPORT. Where a command has no step of its own (60_exceptions R325, 00_scope R15): the faults of a line of SEQ, and
why the line a command begins with has none. -/

namespace Sys2Proof.Machine

/-! ### The faults of a line -/

/-- The fault of a line of a shared procedure, and what it meets: no table, or a cell, a working point or a log entry
that is not there (43 R192, R198, R199; 46 R301; log 16). -/
inductive OpFault (s : State) : Op → Fault → Prop
  | setWp {g} : s.table = none → OpFault s (.setWp g) .noTable
  | setCurrWp {w} : s.table = none → OpFault s (.setCurrWp w) .noTable
  | thresholdsNoTable {w} : s.table = none → OpFault s (.thresholds w) .noTable
  | thresholdsNoCell {w t} : s.table = some t → tableCell t s.currentFreqIndex (w.getD t.currWp) = none →
      OpFault s (.thresholds w) .thresholdsOutOfRange
  | pmicSetNoTable {ch w c} : s.env.pmicStalled = false → s.table = none → OpFault s (.pmicSet ch w c) .noTable
  | pmicSetNoPoint {ch w c t} : s.env.pmicStalled = false → s.table = some t → t.wp[w]? = none →
      OpFault s (.pmicSet ch w c) .wpOutOfRange
  | logInsert {f} : s.logMutex = .free → s.logEntry = .error f → OpFault s .logInsert f

theorem Op.run_fault_iff {o : Op} {s : State} {f : Fault} : o.run s = .fault f ↔ OpFault s o f := by
  constructor
  · intro h
    cases o <;> simp only [Op.run, runModify, runSetWp, runSetCurrWp, runThresholds, runPmicGet, runPmicSet,
      runLogInsert] at h
    case modify => split at h <;> cases h
    case write => cases h
    case rcEnable => split at h <;> cases h
    case setWp =>
      split at h
      · cases h; exact .setWp ‹_›
      · split at h <;> cases h
    case setCurrWp => split at h <;> cases h; exact .setCurrWp ‹_›
    case thresholds =>
      split at h
      · cases h; exact .thresholdsNoTable ‹_›
      · split at h <;> cases h; exact .thresholdsNoCell ‹_› ‹_›
    case pmicGet => split at h <;> cases h
    case pmicSet =>
      split at h
      · cases h
      · have hanswers := Bool.eq_false_iff.2 ‹_›
        split at h
        · cases h; exact .pmicSetNoTable hanswers ‹_›
        · split at h <;> cases h; exact .pmicSetNoPoint hanswers ‹_› ‹_›
    case logInsert =>
      split at h
      · split at h <;> cases h; exact .logInsert ‹_› ‹_›
      · cases h
  · intro h
    cases h <;> simp_all [Op.run, runSetWp, runSetCurrWp, runThresholds, runPmicSet, runLogInsert]

/-- The fault of a line of SEQ: a shared procedure's, FREQ_INDEX_OF's (43 R190), the return of a working point that is
not there, or one that a pure line has met (log 31). -/
inductive SeqFault (s : State) : SeqLine → Fault → Prop
  | op {o f} : OpFault s o f → SeqFault s (.op o) f
  | freqIndexOfNoTable {hz} : s.table = none → SeqFault s (.assign (.freqIndexOf hz)) .noTable
  | freqIndexOfRange {hz t} : s.table = some t → t.dvfsStateNum ≤ freqIndexBy s.params.freqIndexFn hz t →
      SeqFault s (.assign (.freqIndexOf hz)) .freqIndexOutOfRange
  | retCurrWp : s.table = none → SeqFault s .retCurrWp .noTable
  | stop {f} : SeqFault s (.stop f) f

theorem SeqLine.run_fault_iff {l : SeqLine} {a : Args} {s : State} {f : Fault} :
    l.run a s = .fault f ↔ SeqFault s l f := by
  constructor
  · intro h
    cases l <;> simp only [SeqLine.run, runAcquire, runReadClock, runPoll, runSwap, runDrain, runRetCurrWp] at h
    case op o =>
      cases ho : o.run s with
      | fault g => rw [ho] at h; cases h; exact .op (Op.run_fault_iff.1 ho)
      | _ => rw [ho] at h; cases h
    case acquireDvfs => split at h <;> cases h
    case readClock => split at h <;> cases h
    case poll => split at h <;> cases h
    case assign x =>
      cases x <;> simp only [Assign.run] at h
      case freqIndexOf hz =>
        split at h
        · cases h; exact .freqIndexOfNoTable ‹_›
        · split at h <;> cases h; exact .freqIndexOfRange ‹_› (Nat.le_of_not_lt ‹_›)
      all_goals cases h
    case swap => split at h <;> cases h
    case drainLog => split at h <;> cases h
    case retCurrWp => split at h <;> cases h; exact .retCurrWp ‹_›
    case stop => cases h; exact .stop
    all_goals cases h
  · intro h
    cases h
    case op ho => simp [SeqLine.run, Op.run_fault_iff.2 ho, LineResult.ofOp]
    case freqIndexOfRange ht hn => simp [SeqLine.run, Assign.run, ht, Nat.not_lt.2 hn]
    all_goals simp_all [SeqLine.run, Assign.run, runRetCurrWp]

/-! ### The line a command begins with -/

/-- The first of the lines, if there is one, has no fault. -/
def HeadAnswers (s : State) (ls : List SeqLine) : Prop := ∀ l ∈ ls.head?, ∀ f, ¬ SeqFault s l f

/-- SEQ's turn at such lines answers a next state: a line that is done, waits or ends the command does. -/
theorem HeadAnswers.takeLine {s : State} {job : Job} (h : HeadAnswers s job.todo) : ∃ t, s.takeLine job = .next t := by
  cases hj : job.todo with
  | nil => exact ⟨s, by simp [State.takeLine, hj]⟩
  | cons l rest =>
    cases hl : l.run job.args s with
    | done s' more => exact ⟨_, takeLine_done hj hl⟩
    | wait => exact ⟨_, takeLine_wait hj hl⟩
    | ended s' => exact ⟨_, takeLine_ended hj hl⟩
    | fault f => exact absurd (SeqLine.run_fault_iff.1 hl) (h l (by simp [hj]) f)

section Heads
variable {s : State} {rest : List SeqLine}

theorem headAnswers_cons {l : SeqLine} : HeadAnswers s (l :: rest) ↔ ∀ f, ¬ SeqFault s l f := by simp [HeadAnswers]

theorem headAnswers_op {o : Op} : HeadAnswers s (.op o :: rest) ↔ ∀ f, ¬ OpFault s o f := by
  rw [headAnswers_cons]
  exact forall_congr' fun f => not_congr ⟨fun h => by cases h; assumption, .op⟩

theorem headAnswers_raise {e : Err} : HeadAnswers s (.raise e :: rest) := headAnswers_cons.2 nofun

/-- `set_wp` has its first step where a table is installed (43 R192). -/
theorem headAnswers_setWp {g : WpTarget} (ht : s.tableValid = true) : HeadAnswers s (.op (.setWp g) :: rest) := by
  refine headAnswers_op.2 fun f hf => ?_
  cases hf with
  | setWp hnone => simp [State.tableValid, hnone] at ht

/-- A check raises its error, which is an answer, or lets the lines behind it begin. -/
theorem headAnswers_check {c : Prop} [Decidable c] {e : Err} {ls : List SeqLine} (h : ¬ c → HeadAnswers s ls) :
    HeadAnswers s (if c then [.raise e] else ls) := by
  split
  · exact headAnswers_raise
  · exact h ‹_›

end Heads

theorem intscaleLines_headAnswers (s : State) (p : Params) (a : Args) : HeadAnswers s (intscaleLines p a) := by
  unfold intscaleLines
  split
  · exact headAnswers_raise
  · exact headAnswers_cons.2 nofun

theorem pllscaleLines_headAnswers (s : State) (p : Params) (a : Args) : HeadAnswers s (pllscaleLines p a) := by
  unfold pllscaleLines
  split
  · exact headAnswers_raise
  · exact headAnswers_cons.2 nofun

/-- No command begins with a line that faults. The checks keep out DPTC_SET_WP without a table (43 R196); every other
line that can fault comes after the first. -/
theorem planOf_headAnswers (i : Instr) (s : State) (a : Args) : HeadAnswers s (planOf i s a) := by
  cases i with
  | dvfsReqFreq =>
    simp only [planOf, reqFreqPlan]
    split_ifs
    · exact intscaleLines_headAnswers s s.params a
    · exact pllscaleLines_headAnswers s s.params a
    · exact headAnswers_raise
  | dvfsIntscale => exact intscaleLines_headAnswers s s.params a
  | dvfsPllscale => exact pllscaleLines_headAnswers s s.params a
  | dvfsRelock => exact headAnswers_check fun _ => headAnswers_check fun _ => headAnswers_cons.2 nofun
  | dvfsEnable =>
    exact headAnswers_check fun _ => headAnswers_check fun _ => headAnswers_check fun _ => headAnswers_op.2 nofun
  | dvfsDisable =>
    exact headAnswers_check fun _ => headAnswers_check fun _ => headAnswers_check fun _ => headAnswers_op.2 nofun
  | dvfsGetState => exact headAnswers_check fun _ => headAnswers_cons.2 nofun
  | getCpuFreq => exact headAnswers_cons.2 nofun
  | lpmEnter => exact headAnswers_check fun _ => headAnswers_cons.2 nofun
  | dptcEnable =>
    refine headAnswers_check fun _ => ?_
    split
    · exact headAnswers_raise
    · exact headAnswers_check fun _ => headAnswers_op.2 nofun
  | dptcDisable => exact headAnswers_check fun _ => headAnswers_check fun _ => headAnswers_op.2 nofun
  | dptcEnableRc =>
    exact headAnswers_check fun _ => headAnswers_check fun _ => headAnswers_check fun _ => headAnswers_cons.2 nofun
  | dptcDisableRc =>
    exact headAnswers_check fun _ => headAnswers_check fun _ => headAnswers_check fun _ => headAnswers_cons.2 nofun
  | dptcGetState => exact headAnswers_cons.2 nofun
  | dptcSetWp =>
    exact headAnswers_check fun _ => headAnswers_check fun htable => headAnswers_check fun _ =>
      headAnswers_setWp (by simpa using htable)
  | setFreqIndex =>
    refine headAnswers_check fun _ => ?_
    split
    · exact headAnswers_raise
    · exact headAnswers_check fun _ => headAnswers_check fun _ => headAnswers_check fun _ => headAnswers_cons.2 nofun
  | setTable => exact headAnswers_check fun _ => headAnswers_check fun _ => headAnswers_cons.2 nofun
  | getTable =>
    simp only [planOf, getTablePlan]
    split
    · exact headAnswers_raise
    · exact headAnswers_check fun _ => headAnswers_cons.2 nofun
  | logRead => exact headAnswers_check fun _ => headAnswers_cons.2 nofun
  | sysSuspend => exact headAnswers_cons.2 nofun
  | sysResume => exact headAnswers_cons.2 nofun

/-- Settles O5: the first step takes the first line of the command's plan, which has no fault. -/
theorem firstStepOfEveryCommandAnswers : Obligations.FirstStepOfEveryCommandAnswers := by
  rintro i s a ⟨w, hs⟩
  rw [exec_run hs]
  exact HeadAnswers.takeLine (job := ⟨w, a, _⟩) (planOf_headAnswers i s a)

end Sys2Proof.Machine
end
